-- ==== Sys2Proof/Word.lean ====
section
/-!
DEFINITION. The fixed widths of the block (00_scope.md R9). Everything a test could show wrong
(field places, byte order, concatenation of results) stands in Decode.lean and under Machine/.
-/
namespace Sys2Proof

/-- A command word: 64 bits, numbered LSB = bit 0 (R9, R10, R70). -/
abbrev CmdWord := BitVec 64

/-- A byte, as a transport may carry the command word (20_memory.md R54). -/
abbrev Byte := BitVec 8

/-- A buffer index, length, position, count of bits or seed: a 16-bit unsigned field (R9, R72). -/
abbrev Half := BitVec 16

/-- A 32-bit result, counter or data value (R9). -/
abbrev Value := BitVec 32

end Sys2Proof
end

