-- ==== Sys2Proof/Config.lean ====
section
/-!
DEFINITION. The read-only configuration `Cfg` of 00_scope.md R8 as plain data, and the free values
of the model. `Cfg` must be able to hold an ill-formed configuration too, because reset checks it
(70_reset_and_hazards.md R272): its numbers are naturals (log 7). The default values stand in
Machine/Defaults.lean.
-/
namespace Sys2Proof

/-- A payload length in octets, or the variable-length sentinel `VAR` (42_opcode_classifier.md R170). -/
inductive PayLen where
  | var
  | fixed (octets : Nat)
  deriving DecidableEq, Repr, Inhabited

/-- A correcting syndrome table `T = (L, C, SYN)` (41_crc_ecc.md R131). -/
structure CorrTable where
  /-- `L`, the number of protected bits. -/
  len : Nat
  /-- `C`, the checksum width in bits. -/
  width : Nat
  /-- `SYN`, the entry of bit position `p` at place `p`. -/
  syn : List Nat
  deriving DecidableEq, Repr, Inhabited

/-- A CRC-9 detection table `U = (L9, SYN9)` (41_crc_ecc.md R141). -/
structure Crc9Table where
  /-- `L9`, the number of protected bits. -/
  len : Nat
  /-- `SYN9`. -/
  syn : List Nat
  deriving DecidableEq, Repr, Inhabited

/-- One entry of `OPC_DEF`: a defined descriptor (00_scope.md R8). -/
structure OpcDef where
  code : Nat
  length : PayLen
  deriving DecidableEq, Repr, Inhabited

/-- A frame class: an entry `S_j` of `SYNC_TABLE` (10_state.md R33). -/
structure SyncEntry where
  /-- `PAT`, the sync pattern value, MSB first. -/
  pat : Nat
  /-- `SL`, the pattern's length in bits. -/
  sl : Nat
  /-- `SYNC_OFF`. -/
  syncOff : Nat
  /-- `HAS_SUB`. -/
  hasSub : Bool
  /-- `SUB_OFF`. -/
  subOff : Nat
  /-- `SUB_LEN`. -/
  subLen : Nat
  /-- `P1_OFF`. -/
  p1Off : Nat
  /-- `P1_LEN`. -/
  p1Len : Nat
  /-- `P2_OFF`. -/
  p2Off : Nat
  /-- `P2_LEN`; 0 means the class has one segment. -/
  p2Len : Nat
  deriving DecidableEq, Repr, Inhabited

/-- The configuration a model takes as an argument (00_scope.md R8). -/
structure Cfg where
  /-- `CAP`, the buffer capacity in bits. -/
  cap : Nat
  /-- `CORR_TABLES`. -/
  corrTables : List CorrTable
  /-- `CRC9_TABLES`. -/
  crc9Tables : List Crc9Table
  /-- `POLY8`, the low 8 coefficients of the 8-bit generator. -/
  poly8 : BitVec 8
  /-- `CRC9_FAIL_INC`. -/
  crc9FailInc : Nat
  /-- `OPC_DEF`. -/
  opcDef : List OpcDef
  /-- `FB_LEN[0]`. -/
  fbLen0 : PayLen
  /-- `FB_LEN[1]`. -/
  fbLen1 : PayLen
  /-- `FB_LEN[2]`. -/
  fbLen2 : PayLen
  /-- `FB_LEN[3]`. -/
  fbLen3 : PayLen
  /-- `UNIV_LEN`. -/
  univLen : PayLen
  /-- `SYNC_TABLE`. -/
  syncTable : List SyncEntry
  deriving DecidableEq, Repr, Inhabited

/-- FREE VALUE (log 8, DESIGN CHOICE). The frame class a command would find at a place `j` that
`SYNC_TABLE` does not have. No run reaches such a state (10_state.md R39 (b)); nothing is known of it. -/
opaque Config.strayClass : Nat → SyncEntry

/-- FREE VALUE (log 8, DESIGN CHOICE). The syndrome a command would find at a position `p` that its
table does not list. Reset refuses such a table (70_reset_and_hazards.md R272); nothing is known of it. -/
opaque Config.strayEntry : Nat → Nat

end Sys2Proof
end

