-- ==== Sys2Proof/Machine/CfgCheck.lean ====
section
/-!
DEFINITION. The configuration check of reset (70_reset_and_hazards.md R272), its cause codes (R273),
and the regions of a frame class that it and `FRM_LOCATE` use (10_state.md R33).
-/
namespace Sys2Proof.Machine

/-- `x` is in the list. -/
def occurs (x : Nat) : List Nat → Bool
  | [] => false
  | y :: ys => Nat.beq x y || occurs x ys

/-- Some two entries of the list are equal. -/
def hasDup : List Nat → Bool
  | [] => false
  | x :: xs => occurs x xs || hasDup xs

/-- The first cause that is not 0, in order; 0 when there is none (R272: "stops at the first that
fails"). -/
def firstCause : List Nat → Nat
  | [] => 0
  | c :: cs => if c = 0 then firstCause cs else c

/-- Test 1 of R272. -/
def capCause (cap : Nat) : Nat :=
  if cap < 1 || 65535 < cap then 12 else 0

/-- Tests 2 to 4 of R272 on one correcting table. -/
def corrTableCause (T : CorrTable) : Nat :=
  if T.width < 1 || 16 < T.width || T.len < 1 || T.syn.length != T.len then 1
  else if T.syn.any (fun e => 2 ^ T.width ≤ e) then 2
  else if hasDup T.syn then 3
  else 0

/-- Tests 2 to 4 of R272, table by table. -/
def corrTablesCause (Ts : List CorrTable) : Nat :=
  if Ts.length < 1 || 256 < Ts.length then 1 else firstCause (Ts.map corrTableCause)

/-- Tests 5 to 7 of R272 on one CRC-9 table. -/
def crc9TableCause (U : Crc9Table) : Nat :=
  if U.len < 1 || U.syn.length != U.len then 4
  else if U.syn.any (fun e => 2 ^ 9 ≤ e) then 5
  else if hasDup U.syn then 6
  else 0

/-- Tests 5 to 7 of R272, table by table. -/
def crc9TablesCause (Us : List Crc9Table) : Nat :=
  if Us.length < 1 || 256 < Us.length then 4 else firstCause (Us.map crc9TableCause)

/-- Test 8 of R272. -/
def failIncCause (n : Nat) : Nat :=
  if n == 0 || n == 2 then 0 else 13

/-- A length that can be configured: `VAR` or 0..0xFFFE (42_opcode_classifier.md R178). -/
def lengthLegal : PayLen → Bool
  | .var => true
  | .fixed n => n ≤ 0xFFFE

/-- Test 9 of R272 on one entry of `OPC_DEF`. -/
def opcDefCause (e : OpcDef) : Nat :=
  if 255 < e.code then 7 else if lengthLegal e.length then 0 else 9

/-- Test 10 of R272. -/
def opcDupCause (es : List OpcDef) : Nat :=
  if hasDup (es.map (fun e => e.code)) then 8 else 0

/-- Test 11 of R272. -/
def fallbackLenCause (c : Cfg) : Nat :=
  if lengthLegal c.fbLen0 && lengthLegal c.fbLen1 && lengthLegal c.fbLen2 && lengthLegal c.fbLen3
    && lengthLegal c.univLen then 0 else 9

/-- The present regions of a class as (offset, length): the sync field, `P1`, the sub-channel when
`HAS_SUB = 1`, and `P2` when `P2_LEN > 0` (R272). -/
def presentRegions (e : SyncEntry) : List (Nat × Nat) :=
  [(e.syncOff, e.sl), (e.p1Off, e.p1Len)]
    ++ (if e.hasSub then [(e.subOff, e.subLen)] else [])
    ++ (if 0 < e.p2Len then [(e.p2Off, e.p2Len)] else [])

/-- `END_j`: the largest `offset + length` of the present regions, computed without wrap (R272,
10_state.md R33). -/
def regionsEnd (e : SyncEntry) : Nat :=
  (presentRegions e).foldr (fun r m => max (r.1 + r.2) m) 0

/-- `[a, a+m)` and `[b, b+n)` overlap when `a < b+n` and `b < a+m` (R272). -/
def regionsOverlap (r q : Nat × Nat) : Bool :=
  r.1 < q.1 + q.2 && q.1 < r.1 + r.2

/-- Some two regions of the list overlap. -/
def anyOverlap : List (Nat × Nat) → Bool
  | [] => false
  | r :: rs => rs.any (regionsOverlap r) || anyOverlap rs

/-- Test 12 of R272 on one entry of `SYNC_TABLE`. -/
def syncEntryCause (cap : Nat) (e : SyncEntry) : Nat :=
  if e.sl < 1 || 64 < e.sl || 2 ^ e.sl ≤ e.pat || e.p1Len < 1 || cap < regionsEnd e
    || (e.hasSub && e.subLen < 1) || anyOverlap (presentRegions e) then 10 else 0

/-- Test 12 of R272. -/
def syncTableCause (cap : Nat) (S : List SyncEntry) : Nat :=
  if S.length < 1 || 255 < S.length then 10 else firstCause (S.map (syncEntryCause cap))

/-- What no two entries of `SYNC_TABLE` may share: `(SYNC_OFF, SL, PAT)` (R272, test 13). -/
def syncKey (e : SyncEntry) : Nat × Nat × Nat :=
  (e.syncOff, e.sl, e.pat)

/-- Some two entries have the same key. -/
def hasDupKey : List SyncEntry → Bool
  | [] => false
  | e :: es => es.any (fun e' => syncKey e == syncKey e') || hasDupKey es

/-- Test 13 of R272. -/
def syncDupCause (S : List SyncEntry) : Nat :=
  if hasDupKey S then 11 else 0

/-- The configuration check of R272: the code (R273) of the first failing test, 0 when none fails. -/
def checkCfg (c : Cfg) : Nat :=
  firstCause
    [capCause c.cap, corrTablesCause c.corrTables, crc9TablesCause c.crc9Tables,
     failIncCause c.crc9FailInc, firstCause (c.opcDef.map opcDefCause), opcDupCause c.opcDef,
     fallbackLenCause c, syncTableCause c.cap c.syncTable, syncDupCause c.syncTable]

end Sys2Proof.Machine
end

