-- ==== Sys2Proof/Machine/Defaults.lean ====
section
/-!
DEFINITION. The default configuration of 00_scope.md R8: the two default syndrome tables as
41_crc_ecc.md R131 lists them, the default registry, and the default frame classes of
43_frame_sync.md R191. The source fixes none of these values (log 6). Beside them the construction
of a table from a generator (R131).
-/
namespace Sys2Proof.Machine

/-- One step of `CRCREG` (41_crc_ecc.md R131): `fb <- reg[C-1] ^ b`, shift left in `C` bits, and the
generator where `fb` is 1. -/
def crcRegStep (C g : Nat) (reg : Nat) (b : Bool) : Nat :=
  let shifted := (reg <<< 1) % 2 ^ C
  if reg.testBit (C - 1) ^^ b then shifted ^^^ g else shifted

/-- `CRCREG(C, g, bits)`: the MSB-first shift register from 0 (41_crc_ecc.md R131). -/
def crcReg (C g : Nat) (bits : List Bool) : Nat :=
  bits.foldl (crcRegStep C g) 0

/-- `e_p`: the `L`-bit message whose bit `p` is 1 and all others 0 (41_crc_ecc.md R131). -/
def unitMessage (L p : Nat) : List Bool :=
  (List.range L).map (fun k => k == p)

/-- The syndrome table a generator gives: `SYN[p] = CRCREG(C, g, e_p)` (41_crc_ecc.md R131). -/
def generatedTable (C g L : Nat) : List Nat :=
  (List.range L).map (fun p => crcReg C g (unitMessage L p))

/-- Entries 0 to 39 of the default `CCITT80` (41_crc_ecc.md R131). -/
def ccitt80Low : List Nat :=
  [0xE434, 0x721A, 0x390D, 0x9496, 0x4A4B, 0xAD35, 0xDE8A, 0x6F45,
   0xBFB2, 0x5FD9, 0xA7FC, 0x53FE, 0x29FF, 0x9CEF, 0xC667, 0xEB23,
   0xFD81, 0xF6D0, 0x7B68, 0x3DB4, 0x1EDA, 0x0F6D, 0x8FA6, 0x47D3,
   0xABF9, 0xDDEC, 0x6EF6, 0x377B, 0x93AD, 0xC1C6, 0x60E3, 0xB861,
   0xD420, 0x6A10, 0x3508, 0x1A84, 0x0D42, 0x06A1, 0x8B40, 0x45A0]

/-- Entries 40 to 79 of the default `CCITT80` (41_crc_ecc.md R131). -/
def ccitt80High : List Nat :=
  [0x22D0, 0x1168, 0x08B4, 0x045A, 0x022D, 0x8906, 0x4483, 0xAA51,
   0xDD38, 0x6E9C, 0x374E, 0x1BA7, 0x85C3, 0xCAF1, 0xED68, 0x76B4,
   0x3B5A, 0x1DAD, 0x86C6, 0x4363, 0xA9A1, 0xDCC0, 0x6E60, 0x3730,
   0x1B98, 0x0DCC, 0x06E6, 0x0373, 0x89A9, 0xCCC4, 0x6662, 0x3331,
   0x9188, 0x48C4, 0x2462, 0x1231, 0x8108, 0x4084, 0x2042, 0x1021]

/-- Entries 0 to 71 of the default CRC-9 table (41_crc_ecc.md R131). -/
def crc9Low : List Nat :=
  [0x018, 0x00C, 0x006, 0x003, 0x12D, 0x1BA, 0x0DD, 0x142,
   0x0A1, 0x17C, 0x0BE, 0x05F, 0x103, 0x1AD, 0x1FA, 0x0FD,
   0x152, 0x0A9, 0x178, 0x0BC, 0x05E, 0x02F, 0x13B, 0x1B1,
   0x1F4, 0x0FA, 0x07D, 0x112, 0x089, 0x168, 0x0B4, 0x05A,
   0x02D, 0x13A, 0x09D, 0x162, 0x0B1, 0x174, 0x0BA, 0x05D,
   0x102, 0x081, 0x16C, 0x0B6, 0x05B, 0x101, 0x1AC, 0x0D6,
   0x06B, 0x119, 0x1A0, 0x0D0, 0x068, 0x034, 0x01A, 0x00D,
   0x12A, 0x095, 0x166, 0x0B3, 0x175, 0x196, 0x0CB, 0x149,
   0x188, 0x0C4, 0x062, 0x031, 0x134, 0x09A, 0x04D, 0x10A]

/-- Entries 72 to 134 of the default CRC-9 table (41_crc_ecc.md R131). -/
def crc9High : List Nat :=
  [0x085, 0x16E, 0x0B7, 0x177, 0x197, 0x1E7, 0x1DF, 0x1C3,
   0x1CD, 0x1CA, 0x0E5, 0x15E, 0x0AF, 0x17B, 0x191, 0x1E4,
   0x0F2, 0x079, 0x110, 0x088, 0x044, 0x022, 0x011, 0x124,
   0x092, 0x049, 0x108, 0x084, 0x042, 0x021, 0x13C, 0x09E,
   0x04F, 0x10B, 0x1A9, 0x1F8, 0x0FC, 0x07E, 0x03F, 0x133,
   0x1B5, 0x1F6, 0x0FB, 0x151, 0x184, 0x0C2, 0x061, 0x11C,
   0x08E, 0x047, 0x10F, 0x1AB, 0x1F9, 0x1D0, 0x0E8, 0x074,
   0x03A, 0x01D, 0x122, 0x091, 0x164, 0x0B2, 0x059]

/-- Default `CORR_TABLES[0]`, `CCITT80`: `L = 80`, `C = 16` (00_scope.md R8). -/
def ccitt80 : CorrTable :=
  { len := 80, width := 16, syn := ccitt80Low ++ ccitt80High }

/-- Default `CRC9_TABLES[0]`: `L9 = 135` (00_scope.md R8). -/
def crc9Default : Crc9Table :=
  { len := 135, syn := crc9Low ++ crc9High }

/-- The layout the four default classes share (43_frame_sync.md R191). -/
def defaultClass (pat : Nat) (hasSub : Bool) : SyncEntry :=
  { pat := pat, sl := 48, syncOff := 132, hasSub := hasSub, subOff := 0, subLen := 24
    p1Off := 24, p1Len := 108, p2Off := 180, p2Len := 108 }

/-- Default `SYNC_TABLE`: BS_VOICE, BS_DATA, MS_VOICE, MS_DATA (43_frame_sync.md R191). -/
def defaultSyncTable : List SyncEntry :=
  [defaultClass 0x755FD7DF75F7 true, defaultClass 0xDFF57D75DF5D true,
   defaultClass 0x7F7D5DD57DFD false, defaultClass 0xD5D7F77FD757 false]

/-- The default `Cfg` of 00_scope.md R8. -/
def defaultCfg : Cfg :=
  { cap := 288
    corrTables := [ccitt80]
    crc9Tables := [crc9Default]
    poly8 := 0x07#8
    crc9FailInc := 0
    opcDef := [{ code := 17, length := .var }, { code := 70, length := .fixed 9 }]
    fbLen0 := .var
    fbLen1 := .var
    fbLen2 := .var
    fbLen3 := .var
    univLen := .var
    syncTable := defaultSyncTable }

end Sys2Proof.Machine
end

