-- ==== Sys2Proof/Machine/State.lean ====
section
/-!
DEFINITION. The state of one block instance (10_state.md R20 to R35), with the read-only
configuration (R20, R34) and the command port (60_exceptions.md R230), and the state after reset
(10_state.md R38, 70_reset_and_hazards.md R270).
-/
namespace Sys2Proof.Machine

/-- `VERDICT` (10_state.md R26). -/
inductive Verdict where
  | unset
  | passed
  | corrected
  | failed
  deriving DecidableEq, Repr

/-- `STATUS` (60_exceptions.md R231); the codes 8..255 are never written. -/
inductive Status where
  | ok
  | indexError
  | rangeError
  | stateError
  | illegalCommand
  | illegalOperand
  | frameAborted
  | configFault
  deriving DecidableEq, Repr

/-- One cell of the bit buffer: an index and its bit. The buffer's unit is 1 bit (20_memory.md R50). -/
abbrev BitCell := Nat × Bool

/-- The bit buffer `BUF` (10_state.md R23): the cells whose bit differs from what an unlisted index
reads as, indices strictly rising (`Memory.wf`, log 1). -/
abbrev Memory := List BitCell

/-- What the host can put in front of the block between two commands (log 3, log 4). -/
inductive HostInput where
  /-- A command word at the command port (60_exceptions.md R230). -/
  | command (w : CmdWord)
  /-- The reset input, with the configuration it takes (70_reset_and_hazards.md R270). -/
  | reset (c : Cfg)
  deriving DecidableEq, Repr

/-- The state of one block instance (10_state.md R20). -/
structure State where
  /-- `Cfg`, read-only (00_scope.md R8, 10_state.md R34). -/
  cfg : Cfg
  /-- The host's inputs not yet taken, the next one first (the model's own field, log 3). -/
  port : List HostInput
  /-- `BUF` (10_state.md R23). -/
  buf : Memory
  /-- `LEN` (10_state.md R24). -/
  len : Half
  /-- `CCOUNT` (10_state.md R25). -/
  ccount : Value
  /-- `VERDICT` (10_state.md R26). -/
  verdict : Verdict
  /-- `ABORTED` (10_state.md R28). -/
  aborted : Bool
  /-- `FAULT_CAUSE` (10_state.md R29). -/
  faultCause : BitVec 8
  /-- `FAULT_INFO` (10_state.md R29). -/
  faultInfo : Value
  /-- `FVALID` (10_state.md R30). -/
  fvalid : Bool
  /-- `FCLASS` (10_state.md R30). -/
  fclass : BitVec 8
  /-- `SUBC` (10_state.md R31). -/
  subc : Bool
  /-- `SUBVIEW` (10_state.md R31). -/
  subview : Value
  /-- `CFGFAULT` (10_state.md R32). -/
  cfgFault : Bool
  /-- `CFG_CAUSE` (10_state.md R32). -/
  cfgCause : BitVec 8
  /-- `STATUS` (10_state.md R35). -/
  status : Status
  /-- `RESULT` (10_state.md R35). -/
  result : Value
  deriving DecidableEq, Repr

/-- The reasons a step could stop the machine: none. Every outcome of a command is a response
(60_exceptions.md R231, R242) and "Every command completes" (R251), so no meaning and no step raises
one (log 9). -/
inductive Fault
  deriving DecidableEq, Repr

/-- The reasons a step could refuse an instruction. -/
inductive Refusal where
  /-- Raised by an arm of `exec` whose instruction has no meaning yet. Safe. No arm raises it now. -/
  | notModelled (mnemonic : String)
  deriving DecidableEq, Repr

/-- The state after reset with the configuration `c` (10_state.md R38, 70_reset_and_hazards.md R270):
the check of R272 sets `CFG_CAUSE` and `CFGFAULT`, all else is 0. -/
def State.resetWith (c : Cfg) : State :=
  { cfg := c
    port := []
    buf := []
    len := 0#16
    ccount := 0#32
    verdict := .unset
    aborted := false
    faultCause := 0#8
    faultInfo := 0#32
    fvalid := false
    fclass := 0#8
    subc := false
    subview := 0#32
    cfgFault := checkCfg c != 0
    cfgCause := BitVec.ofNat 8 (checkCfg c)
    status := .ok
    result := 0#32 }

/-- The state right after reset with the default configuration of 00_scope.md R8 (log 5). -/
def State.reset : State := State.resetWith defaultCfg

end Sys2Proof.Machine
end

