-- ==== Sys2Proof/Machine/Ops.lean ====
section
/-!
DEFINITION. The named operations over the bit buffer and the registers, raising a fault
(60_exceptions.md R233, R236), the recovery from one (R243: a new frame context), and the check
sequence every command runs (R240).
-/
namespace Sys2Proof.Machine

/-! ## The bit buffer -/

/-- What an index that is not listed reads as: 0, the value `BUF_INIT` and reset leave
(10_state.md R38, 40_bit_buffer.md R100). -/
def Memory.unlisted : Bool := false

/-- `BUF[i]` (00_scope.md R12). -/
def Memory.read (m : Memory) (i : Nat) : Bool :=
  match m.find? (fun c => c.1 == i) with
  | some c => c.2
  | none => Memory.unlisted

/-- The buffer with index `i` no longer listed. -/
def Memory.erase (m : Memory) (i : Nat) : Memory :=
  m.filter (fun c => c.1 != i)

/-- The buffer with the cell `(i, b)` listed at its place by index. -/
def Memory.insert (m : Memory) (i : Nat) (b : Bool) : Memory :=
  match m with
  | [] => [(i, b)]
  | c :: cs => if i < c.1 then (i, b) :: c :: cs else c :: Memory.insert cs i b

/-- `BUF[i] <- b` (00_scope.md R12), in canonical form. -/
def Memory.write (m : Memory) (i : Nat) (b : Bool) : Memory :=
  if b == Memory.unlisted then Memory.erase m i else Memory.insert (Memory.erase m i) i b

/-- The canonical form: indices strictly rising, no cell equal to what an unlisted index reads as. -/
abbrev Memory.wf (m : Memory) : Prop :=
  m.Pairwise (fun c d => c.1 < d.1) ∧ ∀ c ∈ m, c.2 = !Memory.unlisted

/-- `BufRange(a, a+n-1)`: the `n` bits from index `a` as an integer, the lowest index the most
significant bit (00_scope.md R12, 20_memory.md R52). -/
def rangeNat (m : Memory) (a : Nat) : Nat → Nat
  | 0 => 0
  | n + 1 => 2 * rangeNat m a n + (Memory.read m (a + n)).toNat

/-- The low `n` bits of `data` written from index `a` on, the most significant of them first
(20_memory.md R52, 40_bit_buffer.md R102). -/
def putBits (data : Value) : Nat → Nat → Memory → Memory
  | 0, _, m => m
  | n + 1, a, m => putBits data n (a + 1) (Memory.write m a (data.getLsbD n))

/-- `BUF[i] <- 1 - BUF[i]` (40_bit_buffer.md R105). -/
def flipBit (m : Memory) (i : Nat) : Memory :=
  Memory.write m i (!Memory.read m i)

/-- The least `i` with `f <= i < f + n` and `BUF[i] = 1`, or none. -/
def nextSetFrom (m : Memory) : Nat → Nat → Option Nat
  | 0, _ => none
  | n + 1, f => if Memory.read m f then some f else nextSetFrom m n (f + 1)

/-- `NSB(f)`: the least `i` with `f <= i < LEN` and `BUF[i] = 1`, or none (00_scope.md R12). -/
def nsb (m : Memory) (len f : Nat) : Option Nat :=
  nextSetFrom m (len - f) f

/-! ## Register updates -/

/-- `respond(status, result)` (00_scope.md R12). -/
def State.respond (s : State) (st : Status) (v : Value) : State :=
  { s with status := st, result := v }

/-- The buffer becomes `m`. -/
def State.withBuf (s : State) (m : Memory) : State :=
  { s with buf := m }

/-- `SetVerdict(v)` (40_bit_buffer.md R108). -/
def State.setVerdict (s : State) (v : Verdict) : State :=
  { s with verdict := v }

/-- `sat32(v)` (00_scope.md R11). -/
def sat32 (v : Nat) : Value := BitVec.ofNat 32 (min v (2 ^ 32 - 1))

/-- `IncCorr(n)`: `CCOUNT <- sat32(CCOUNT + n)` (40_bit_buffer.md R108, 10_state.md R25). -/
def State.incCorr (s : State) (n : Nat) : State :=
  { s with ccount := sat32 (s.ccount.toNat + n) }

/-- What a frame-fatal fault records beside its response (60_exceptions.md R236). -/
def State.abortFrame (s : State) (cause : BitVec 8) (x : Half) : State :=
  { s with aborted := true, faultCause := cause, faultInfo := x.setWidth 32 }

/-- A new frame context of `n` bits: every per-frame field at the value of 40_bit_buffer.md R100.
It is also the way out of an aborted one (60_exceptions.md R237, R243). -/
def State.newContext (s : State) (n : Half) : State :=
  { s with
    buf := []
    len := n
    ccount := 0#32
    verdict := .unset
    aborted := false
    faultCause := 0#8
    faultInfo := 0#32
    fvalid := false
    fclass := 0#8
    subc := false
    subview := 0#32 }

/-- The frame of class `j` is constructed (43_frame_sync.md R193). -/
def State.setFrame (s : State) (j : BitVec 8) : State :=
  { s with fvalid := true, fclass := j, subc := false }

/-- The sub-channel view is materialized (43_frame_sync.md R197). -/
def State.fillSub (s : State) (view : Value) : State :=
  { s with subview := view, subc := true }

/-- The host's inputs still to come become `p` (log 3). -/
def State.withPort (s : State) (p : List HostInput) : State :=
  { s with port := p }

/-! ## Faults -/

/-- What `raise E(info)` can raise (00_scope.md R12, 60_exceptions.md R231). -/
inductive Raised where
  | indexError (x : Half)
  | rangeError (x : Half)
  | stateError
  | illegalCommand
  | illegalOperand
  | frameAborted
  | configFault
  deriving DecidableEq, Repr

/-- Raising a fault: the frame-fatal ones record themselves (60_exceptions.md R236), the per-call ones
write only the response (R233). -/
def State.raise (s : State) : Raised → State
  | .indexError x => (s.abortFrame 1#8 x).respond .indexError 0#32
  | .rangeError x => (s.abortFrame 2#8 x).respond .rangeError 0#32
  | .stateError => s.respond .stateError 0#32
  | .illegalCommand => s.respond .illegalCommand 0#32
  | .illegalOperand => s.respond .illegalOperand 0#32
  | .frameAborted => s.respond .frameAborted 0#32
  | .configFault => s.respond .configFault 0#32

/-! ## The check sequence -/

/-- What the check sequence of 60_exceptions.md R240 needs to know of a command. -/
structure Gate where
  /-- Step 2 applies: the command is not `RD_REG` (R238). -/
  needsConfig : Bool
  /-- Step 3: the operands are in their legal set (30_encoding.md R75). -/
  legal : Bool
  /-- Step 4 applies: the command is frame-dependent (R237). -/
  frameDependent : Bool
  /-- Step 5: no check of the command rule raises `STATE_ERROR`. -/
  stateOk : Bool
  /-- Step 6: what the command's bounds check raises, if anything. -/
  bounds : Option Raised

/-- The gate of a frame-dependent command (60_exceptions.md R237). -/
def frameGate (legal stateOk : Bool) (bounds : Option Raised) : Gate :=
  { needsConfig := true, legal := legal, frameDependent := true, stateOk := stateOk,
    bounds := bounds }

/-- The gate of a command that needs a valid configuration but no frame context: `BUF_INIT` and the
opcode classifier (60_exceptions.md R237). -/
def freeGate (legal : Bool) : Gate :=
  { needsConfig := true, legal := legal, frameDependent := false, stateOk := true, bounds := none }

/-- The gate of `RD_REG`, which runs in every state (60_exceptions.md R238). -/
def readGate (legal : Bool) : Gate :=
  { needsConfig := false, legal := legal, frameDependent := false, stateOk := true, bounds := none }

/-- Steps 2 to 6 of 60_exceptions.md R240: the first check that raises. -/
def firstRaised (g : Gate) (s : State) : Option Raised :=
  if g.needsConfig && s.cfgFault then some .configFault
  else if !g.legal then some .illegalOperand
  else if g.frameDependent && s.aborted then some .frameAborted
  else if !g.stateOk then some .stateError
  else g.bounds

/-- Steps 2 to 7 of 60_exceptions.md R240: the first check that raises decides the response, and
otherwise the command's effect happens. -/
def runCommand (g : Gate) (effect : State → State) (s : State) :
    Host.Outcome State Fault Refusal :=
  match firstRaised g s with
  | some r => .next (s.raise r)
  | none => .next (effect s)

end Sys2Proof.Machine
end

