-- ==== Sys2Proof/Syntax.lean ====
section
/-!
DEFINITION. The commands of `SLE-1`: one constructor per row of the opcode map (30_encoding.md R74),
its operands at the widths of R71, in the operand order of R77.
-/
namespace Sys2Proof

/-- A command of the block. `V` operands are 32 bits, `A`, `B` and `C` operands 16 bits, `D`
operands 8 bits (30_encoding.md R71, R74). -/
inductive Instr where
  /-- 0x01 `BUF_INIT len` -/
  | bufInit (len : Half)
  /-- 0x02 `BUF_PUT start, count, data` -/
  | bufPut (start : Half) (count : BitVec 8) (data : Value)
  /-- 0x03 `BIT_GET i` -/
  | bitGet (i : Half)
  /-- 0x04 `BIT_SET i` -/
  | bitSet (i : Half)
  /-- 0x05 `BIT_FLIP i` -/
  | bitFlip (i : Half)
  /-- 0x06 `BIT_NSB from` -/
  | bitNsb (start : Half)
  /-- 0x07 `BUF_GETR start, end, W` -/
  | bufGetr (start stop : Half) (w : BitVec 8)
  /-- 0x10 `CRC_CORR t, MS, CS, seed` -/
  | crcCorr (t : BitVec 8) (ms cs seed : Half)
  /-- 0x11 `CRC9_CHK t, MS, CS` -/
  | crc9Chk (t : BitVec 8) (ms cs : Half)
  /-- 0x12 `CRC8_CALC start, count` -/
  | crc8Calc (start count : Half)
  /-- 0x20 `OPC_LOOKUP value` -/
  | opcLookup (value : Value)
  /-- 0x21 `OPC_ISVAR id` -/
  | opcIsvar (id : Half)
  /-- 0x22 `OPC_DESC id` -/
  | opcDesc (id : Half)
  /-- 0x30 `FRM_LOCATE` -/
  | frmLocate
  /-- 0x31 `FRM_HASSUB` -/
  | frmHassub
  /-- 0x32 `FRM_GETSUB` -/
  | frmGetsub
  /-- 0x33 `FRM_PAYLOAD seg` -/
  | frmPayload (seg : BitVec 8)
  /-- 0x40 `RD_REG sel` -/
  | rdReg (sel : BitVec 8)
  deriving DecidableEq, Repr

/-- The registers of the `RD_REG` map (10_state.md R36). -/
inductive Reg where
  | len
  | ccount
  | verdict
  | flags
  | fclass
  | faultCause
  | faultInfo
  | cap
  | subview
  | cfgCause
  deriving DecidableEq, Repr

end Sys2Proof
end

