-- ==== Sys2Proof/Machine/Operands.lean ====
section
/-!
DEFINITION. Operands: their assembly (30_encoding.md R72), the legal sets of R75, the state conditions
the command rules test, and results of two 16-bit halves (00_scope.md R11).
-/
namespace Sys2Proof.Machine

/-- `{hi, lo}` (00_scope.md R11). -/
def pair (hi lo : Half) : Value := hi ++ lo

/-- The result a command gives for "none": -1 as 32 bits (40_bit_buffer.md R106, 43_frame_sync.md R193). -/
def noneResult : Value := 0xFFFFFFFF#32

/-- `sext_64(V)` of `OPC_LOOKUP`, as an integer in `-2^31 .. 2^31-1` (30_encoding.md R72). -/
def signedOperand (v : Value) : Int := v.toInt

/-- `BUF_INIT`: `1 <= len <= CAP` (30_encoding.md R75). -/
def lenLegal (c : Cfg) (len : Half) : Bool :=
  1 ≤ len.toNat && len.toNat ≤ c.cap

/-- `BUF_PUT`: `1 <= count <= 32` and `data < 2^count` (30_encoding.md R75). -/
def putLegal (count : BitVec 8) (data : Value) : Bool :=
  1 ≤ count.toNat && count.toNat ≤ 32 && data.toNat < 2 ^ count.toNat

/-- `BUF_GETR`: `1 <= W <= 32` (30_encoding.md R75). -/
def widthLegal (w : BitVec 8) : Bool :=
  1 ≤ w.toNat && w.toNat ≤ 32

/-- `CRC_CORR`: `seed < 2^(C_t)` (30_encoding.md R75). -/
def seedLegal (T : CorrTable) (seed : Half) : Bool :=
  seed.toNat < 2 ^ T.width

/-- `CRC8_CALC`: `count >= 1` (30_encoding.md R75). -/
def countLegal (count : Half) : Bool :=
  1 ≤ count.toNat

/-- `FRM_PAYLOAD`: `seg` is 1 or 2 (30_encoding.md R75). -/
def segLegal (seg : BitVec 8) : Bool :=
  seg.toNat == 1 || seg.toNat == 2

/-- The register an `RD_REG` selector names; selectors 10..255 name none (10_state.md R36). -/
def regOf (sel : BitVec 8) : Option Reg :=
  match sel.toNat with
  | 0 => some .len
  | 1 => some .ccount
  | 2 => some .verdict
  | 3 => some .flags
  | 4 => some .fclass
  | 5 => some .faultCause
  | 6 => some .faultInfo
  | 7 => some .cap
  | 8 => some .subview
  | 9 => some .cfgCause
  | _ => none

/-- A buffer is loaded: `LEN != 0` (10_state.md R24). -/
def loaded (s : State) : Bool := s.len != 0#16

/-- The write phase, in which the host may write the buffer and a validation may run: `LEN != 0` and
`VERDICT = UNSET` (40_bit_buffer.md R101, 41_crc_ecc.md R133). -/
def writePhase (s : State) : Bool := loaded s && s.verdict == .unset

/-- `FRM_LOCATE` may run: a validated buffer and no frame yet (43_frame_sync.md R193). -/
def locatable (s : State) : Bool :=
  loaded s && (s.verdict == .passed || s.verdict == .corrected) && !s.fvalid

/-- A frame exists: `LEN != 0` and `FVALID = 1` (43_frame_sync.md R196). -/
def framed (s : State) : Bool := loaded s && s.fvalid

/-- The single-bit bounds check: `i >= LEN` raises `INDEX_ERROR(i)` (40_bit_buffer.md R103). -/
def indexCheck (s : State) (i : Half) : Option Raised :=
  if s.len.toNat ≤ i.toNat then some (.indexError i) else none

/-- A range check: a bad range raises `RANGE_ERROR(x)` (60_exceptions.md R236). -/
def rangeCheck (bad : Bool) (x : Half) : Option Raised :=
  if bad then some (.rangeError x) else none

end Sys2Proof.Machine
end

