-- ==== Sys2Proof/Machine/BitBuffer.lean ====
section
/-!
DEFINITION. The bit buffer commands (40_bit_buffer.md R100 to R107).
-/
namespace Sys2Proof.Machine

/-- `BUF_INIT len` (R100). -/
def execBufInit (len : Half) (s : State) : Host.Outcome State Fault Refusal :=
  runCommand (freeGate (lenLegal s.cfg len))
    (fun s => (s.newContext len).respond .ok (len.setWidth 32)) s

/-- `BUF_PUT start, count, data` (R102). -/
def execBufPut (start : Half) (count : BitVec 8) (data : Value) (s : State) :
    Host.Outcome State Fault Refusal :=
  runCommand
    (frameGate (putLegal count data) (writePhase s)
      (rangeCheck (s.len.toNat < start.toNat + count.toNat) start))
    (fun s => (s.withBuf (putBits data count.toNat start.toNat s.buf)).respond .ok 0#32) s

/-- `BIT_GET i` (R103). -/
def execBitGet (i : Half) (s : State) : Host.Outcome State Fault Refusal :=
  runCommand (frameGate true (loaded s) (indexCheck s i))
    (fun s => s.respond .ok ((BitVec.ofBool (Memory.read s.buf i.toNat)).setWidth 32)) s

/-- `BIT_SET i` (R104). -/
def execBitSet (i : Half) (s : State) : Host.Outcome State Fault Refusal :=
  runCommand (frameGate true (writePhase s) (indexCheck s i))
    (fun s => (s.withBuf (Memory.write s.buf i.toNat true)).respond .ok 0#32) s

/-- `BIT_FLIP i` (R105). -/
def execBitFlip (i : Half) (s : State) : Host.Outcome State Fault Refusal :=
  runCommand (frameGate true (writePhase s) (indexCheck s i))
    (fun s => (s.withBuf (flipBit s.buf i.toNat)).respond .ok 0#32) s

/-- The result of `BIT_NSB`: the index, or the sentinel when there is none (R106). -/
def nsbResult : Option Nat → Value
  | some n => BitVec.ofNat 32 n
  | none => noneResult

/-- `BIT_NSB from` (R106). -/
def execBitNsb (start : Half) (s : State) : Host.Outcome State Fault Refusal :=
  runCommand (frameGate true (loaded s) none)
    (fun s => s.respond .ok (nsbResult (nsb s.buf s.len.toNat start.toNat))) s

/-- The range a `BUF_GETR` must not ask for: reversed, past `LEN`, or wider than `W` (R107). -/
def getrBad (s : State) (start stop : Half) (w : BitVec 8) : Bool :=
  stop.toNat < start.toNat || s.len.toNat ≤ stop.toNat
    || w.toNat < stop.toNat - start.toNat + 1

/-- `BUF_GETR start, end, W` (R107). -/
def execBufGetr (start stop : Half) (w : BitVec 8) (s : State) :
    Host.Outcome State Fault Refusal :=
  runCommand
    (frameGate (widthLegal w) (loaded s) (rangeCheck (getrBad s start stop w) start))
    (fun s => s.respond .ok
      (BitVec.ofNat 32 (rangeNat s.buf start.toNat (stop.toNat - start.toNat + 1)))) s

end Sys2Proof.Machine
end

