-- ==== Sys2Proof/Machine/Flags.lean ====
section
/-!
DEFINITION. The codes of `VERDICT` and `STATUS` (10_state.md R26, 60_exceptions.md R231) and the
`FLAGS` word (10_state.md R37).
-/
namespace Sys2Proof.Machine

/-- The 2-bit code of a verdict (10_state.md R26). -/
def verdictCode : Verdict → BitVec 2
  | .unset => 0#2
  | .passed => 1#2
  | .corrected => 2#2
  | .failed => 3#2

/-- The 8-bit code of a status (60_exceptions.md R231). -/
def statusCode : Status → BitVec 8
  | .ok => 0#8
  | .indexError => 1#8
  | .rangeError => 2#8
  | .stateError => 3#8
  | .illegalCommand => 4#8
  | .illegalOperand => 5#8
  | .frameAborted => 6#8
  | .configFault => 7#8

/-- The verdict code as a 32-bit result (41_crc_ecc.md R138). -/
def verdictResult (v : Verdict) : Value := (verdictCode v).setWidth 32

/-- `FLAGS` (10_state.md R37): `{CFGFAULT, SUBC, FVALID, ABORTED, (LEN != 0)}` in bits [4:0], the other
bits 0 (44_control.md R220). -/
def flagsWord (s : State) : Value :=
  (BitVec.ofBool s.cfgFault ++ BitVec.ofBool s.subc ++ BitVec.ofBool s.fvalid
    ++ BitVec.ofBool s.aborted ++ BitVec.ofBool (s.len != 0#16)).setWidth 32

end Sys2Proof.Machine
end

