-- ==== Sys2Proof/Machine/Control.lean ====
section
/-!
DEFINITION. The control command `RD_REG` (44_control.md R220) over the register map of
10_state.md R36.
-/
namespace Sys2Proof.Machine

/-- The content of a register, zero-extended to 32 bits (R220, 10_state.md R36). -/
def readReg (s : State) : Reg → Value
  | .len => s.len.setWidth 32
  | .ccount => s.ccount
  | .verdict => (verdictCode s.verdict).setWidth 32
  | .flags => flagsWord s
  | .fclass => if s.fvalid then s.fclass.setWidth 32 else 0xFFFFFFFF#32
  | .faultCause => s.faultCause.setWidth 32
  | .faultInfo => s.faultInfo
  | .cap => (BitVec.ofNat 16 s.cfg.cap).setWidth 32
  | .subview => if s.subc then s.subview else 0#32
  | .cfgCause => s.cfgCause.setWidth 32

/-- `RD_REG sel` (R220). -/
def execRdReg (sel : BitVec 8) (s : State) : Host.Outcome State Fault Refusal :=
  match regOf sel with
  | none => runCommand (readGate false) (fun s => s) s
  | some r => runCommand (readGate true) (fun s => s.respond .ok (readReg s r)) s

end Sys2Proof.Machine
end

