-- ==== Sys2Proof/Machine/Crc.lean ====
section
/-!
DEFINITION. The CRC/FEC commands and the syndrome lookup (41_crc_ecc.md R130 to R151).
-/
namespace Sys2Proof.Machine

/-- `ONES_N = 2^N - 1` (00_scope.md R11). -/
def ones (n : Nat) : Nat := 2 ^ n - 1

/-- `SYN[p]` of a table; a position the table does not list gives a free value (log 8). -/
def synAt (syn : List Nat) (p : Nat) : Nat :=
  syn[p]?.getD (Config.strayEntry p)

/-- The accumulation loop of R132 and R141: from the set bit `i`, XOR the entry of each set bit below
`stop` into the accumulator and go on at `NSB(i + 1)`. The first argument bounds the number of set
bits visited. -/
def xorSetBits (m : Memory) (len stop : Nat) (entry : Nat → Nat) : Nat → Option Nat → Nat → Nat
  | 0, _, acc => acc
  | _ + 1, none, acc => acc
  | n + 1, some i, acc =>
    if i < stop then xorSetBits m len stop entry n (nsb m len (i + 1)) (acc ^^^ entry i) else acc

/-- The accumulator over the region of `n` bits from `ms`, started at `acc` (R135, R143). A region of
`n` bits holds at most `n` set bits. -/
def accumulate (m : Memory) (len ms n : Nat) (entry : Nat → Nat) (acc : Nat) : Nat :=
  xorSetBits m len (ms + n) entry n (nsb m len ms) acc

/-- The accumulator of `CRC_CORR` (R135). -/
def corrAcc (T : CorrTable) (m : Memory) (len ms seed : Nat) : Nat :=
  accumulate m len ms T.len (fun i => synAt T.syn (i - ms)) seed

/-- The residual of `CRC_CORR`: the accumulator XOR the transmitted checksum (R136). -/
def corrResidual (T : CorrTable) (m : Memory) (len ms cs seed : Nat) : Nat :=
  corrAcc T m len ms seed ^^^ rangeNat m cs T.width

/-- The syndrome lookup: the position `p < L` with `SYN[p] = res`, if any (R137). -/
def lookupSyndrome (T : CorrTable) (res : Nat) : Option Nat :=
  (List.range T.len).find? (fun p => synAt T.syn p == res)

/-- Verdict, correction and result of `CRC_CORR`, decided on the residual (R137, R138). -/
def corrEffect (T : CorrTable) (ms cs seed : Half) (s : State) : State :=
  let res := corrResidual T s.buf s.len.toNat ms.toNat cs.toNat seed.toNat
  if res = 0 ∨ res = ones T.width then
    (s.setVerdict .passed).respond .ok (verdictResult .passed)
  else
    match lookupSyndrome T res with
    | some p =>
      (((s.withBuf (flipBit s.buf (ms.toNat + p))).incCorr 1).setVerdict .corrected).respond .ok
        ((BitVec.ofNat 32 (ms.toNat + p)) <<< 16 ||| verdictResult .corrected)
    | none => ((s.incCorr 2).setVerdict .failed).respond .ok (verdictResult .failed)

/-- The region or the checksum field does not fit, or the field starts inside the region (R134). Every
sum is computed without wrap. -/
def corrBad (T : CorrTable) (len ms cs : Nat) : Bool :=
  len < ms + T.len || cs < ms + T.len || len < cs + T.width

/-- `CRC_CORR t, MS, CS, seed` (R132). -/
def execCrcCorr (t : BitVec 8) (ms cs seed : Half) (s : State) :
    Host.Outcome State Fault Refusal :=
  match s.cfg.corrTables[t.toNat]? with
  | none => runCommand (frameGate false (writePhase s) none) (fun s => s) s
  | some T =>
    runCommand
      (frameGate (seedLegal T seed) (writePhase s)
        (rangeCheck (corrBad T s.len.toNat ms.toNat cs.toNat) ms))
      (corrEffect T ms cs seed) s

/-- The CRC-9 index mapping: bits before the checksum field index directly, bits after it offset by 9,
bits of the field contribute nothing (R143). -/
def crc9Entry (U : Crc9Table) (ms cs i : Nat) : Nat :=
  if i < cs then synAt U.syn (i - ms)
  else if cs + 9 ≤ i then synAt U.syn (i - ms - 9)
  else 0

/-- The accumulator of `CRC9_CHK` (R143). -/
def crc9Acc (U : Crc9Table) (m : Memory) (len ms cs : Nat) : Nat :=
  accumulate m len ms (U.len + 9) (crc9Entry U ms cs) 0

/-- The residual of `CRC9_CHK` (R144). -/
def crc9Residual (U : Crc9Table) (m : Memory) (len ms cs : Nat) : Nat :=
  crc9Acc U m len ms cs ^^^ rangeNat m cs 9

/-- Verdict, bookkeeping and result of `CRC9_CHK` (R144, R145). -/
def crc9Effect (U : Crc9Table) (ms cs : Half) (s : State) : State :=
  let res := crc9Residual U s.buf s.len.toNat ms.toNat cs.toNat
  if res = 0 ∨ res = ones 9 then
    (s.setVerdict .passed).respond .ok (verdictResult .passed)
  else ((s.incCorr s.cfg.crc9FailInc).setVerdict .failed).respond .ok (verdictResult .failed)

/-- The region does not fit, or the checksum field does not lie inside it (R142). -/
def crc9Bad (U : Crc9Table) (len ms cs : Nat) : Bool :=
  len < ms + U.len + 9 || cs < ms || ms + U.len < cs

/-- `CRC9_CHK t, MS, CS` (R141). -/
def execCrc9Chk (t : BitVec 8) (ms cs : Half) (s : State) : Host.Outcome State Fault Refusal :=
  match s.cfg.crc9Tables[t.toNat]? with
  | none => runCommand (frameGate false (writePhase s) none) (fun s => s) s
  | some U =>
    runCommand
      (frameGate true (writePhase s)
        (rangeCheck (crc9Bad U s.len.toNat ms.toNat cs.toNat) ms))
      (crc9Effect U ms cs) s

/-- One step of the bit-serial division: `fb <- reg[7] ^ b`, shift left, and `POLY8` where `fb` is 1
(R150). -/
def crc8Step (poly reg : BitVec 8) (b : Bool) : BitVec 8 :=
  if reg.getLsbD 7 ^^ b then (reg <<< 1) ^^^ poly else reg <<< 1

/-- The division over the `n` bits from index `a`, from the remainder `reg` (R150). -/
def crc8Run (poly : BitVec 8) (m : Memory) : Nat → Nat → BitVec 8 → BitVec 8
  | 0, _, reg => reg
  | n + 1, a, reg => crc8Run poly m n (a + 1) (crc8Step poly reg (Memory.read m a))

/-- `CRC8_CALC start, count` (R150). -/
def execCrc8Calc (start count : Half) (s : State) : Host.Outcome State Fault Refusal :=
  runCommand
    (frameGate (countLegal count) (loaded s)
      (rangeCheck (s.len.toNat < start.toNat + count.toNat) start))
    (fun s => s.respond .ok
      ((crc8Run s.cfg.poly8 s.buf count.toNat start.toNat 0#8).setWidth 32)) s

end Sys2Proof.Machine
end

