-- ==== Sys2Proof/Machine/Frame.lean ====
section
/-!
DEFINITION. The frame sync commands (43_frame_sync.md R190 to R198).
-/
namespace Sys2Proof.Machine

/-- Entry `e` matches the buffer: every region lies below `LEN` and the sync field equals the pattern
exactly (R192). -/
def syncMatches (m : Memory) (len : Nat) (e : SyncEntry) : Bool :=
  regionsEnd e ≤ len && rangeNat m e.syncOff e.sl == e.pat

/-- The first matching entry in table order (R193). -/
def locateClass (S : List SyncEntry) (m : Memory) (len : Nat) : Option Nat :=
  S.findIdx? (syncMatches m len)

/-- The effect of `FRM_LOCATE`: the frame of the first matching class, or no state change (R193). -/
def locateEffect (s : State) : State :=
  match locateClass s.cfg.syncTable s.buf s.len.toNat with
  | some j => (s.setFrame (BitVec.ofNat 8 j)).respond .ok (BitVec.ofNat 32 j)
  | none => s.respond .ok noneResult

/-- `FRM_LOCATE` (R193). -/
def execFrmLocate (s : State) : Host.Outcome State Fault Refusal :=
  runCommand (frameGate true (locatable s) none) locateEffect s

/-- The class of the frame, `S_FCLASS`. A class the table does not have gives a free value (log 8). -/
def currentClass (s : State) : SyncEntry :=
  s.cfg.syncTable[s.fclass.toNat]?.getD (Config.strayClass s.fclass.toNat)

/-- `FRM_HASSUB` (R196). -/
def execFrmHassub (s : State) : Host.Outcome State Fault Refusal :=
  runCommand (frameGate true (framed s) none)
    (fun s => s.respond .ok ((BitVec.ofBool (currentClass s).hasSub).setWidth 32)) s

/-- The view of the sub-channel of a class: `{SUB_OFF, SUB_LEN}` (R197). -/
def subView (e : SyncEntry) : Value :=
  pair (BitVec.ofNat 16 e.subOff) (BitVec.ofNat 16 e.subLen)

/-- The effect of `FRM_GETSUB`: fill the cache on first access, return the cached view (R197). -/
def getsubEffect (s : State) : State :=
  if s.subc then s.respond .ok s.subview
  else (s.fillSub (subView (currentClass s))).respond .ok (subView (currentClass s))

/-- `FRM_GETSUB` (R197). -/
def execFrmGetsub (s : State) : Host.Outcome State Fault Refusal :=
  runCommand (frameGate true (framed s && (currentClass s).hasSub) none) getsubEffect s

/-- The bounds of payload segment `seg`, `{offset, length}` (R198). -/
def payloadBounds (e : SyncEntry) (seg : BitVec 8) : Value :=
  if seg.toNat = 1 then pair (BitVec.ofNat 16 e.p1Off) (BitVec.ofNat 16 e.p1Len)
  else pair (BitVec.ofNat 16 e.p2Off) (BitVec.ofNat 16 e.p2Len)

/-- `FRM_PAYLOAD seg` (R198). -/
def execFrmPayload (seg : BitVec 8) (s : State) : Host.Outcome State Fault Refusal :=
  runCommand
    (frameGate (segLegal seg)
      (framed s && !(seg.toNat == 2 && (currentClass s).p2Len == 0)) none)
    (fun s => s.respond .ok (payloadBounds (currentClass s) seg)) s

end Sys2Proof.Machine
end

