-- ==== Sys2Proof/Machine/Opcode.lean ====
section
/-!
DEFINITION. The opcode classifier commands (42_opcode_classifier.md R170 to R178).
-/
namespace Sys2Proof.Machine

/-- A descriptor of the registry (R170): a defined code, a band fallback, or the universal unknown. -/
inductive Descriptor where
  | defined (code : Nat) (length : PayLen)
  | fallback (band : Fin 4)
  | universal
  deriving DecidableEq, Repr

/-- `FB_LEN[b]` (00_scope.md R8). -/
def fbLen (c : Cfg) : Fin 4 → PayLen
  | 0 => c.fbLen0
  | 1 => c.fbLen1
  | 2 => c.fbLen2
  | 3 => c.fbLen3

/-- The band of a code in `[0,255]`: `floor(v / 64)` (R172). -/
def bandOf (v : Nat) : Fin 4 := Fin.ofNat 4 (v / 64)

/-- The reverse-lookup index: the entry of `OPC_DEF` with code `v`, if any (R173). -/
def findDef (c : Cfg) (v : Nat) : Option OpcDef :=
  c.opcDef.find? (fun e => e.code == v)

/-- The total lookup: exact match first, then the band fallback, and the universal unknown outside
`[0,255]` (R174). -/
def classify (c : Cfg) (v : Int) : Descriptor :=
  if 0 ≤ v ∧ v ≤ 255 then
    match findDef c v.toNat with
    | some e => .defined v.toNat e.length
    | none => .fallback (bandOf v.toNat)
  else .universal

/-- The id of a descriptor (R171). -/
def descriptorId : Descriptor → Half
  | .defined code _ => BitVec.ofNat 16 code
  | .fallback band => BitVec.ofNat 16 (256 + band.val)
  | .universal => 260#16

/-- The code field of a descriptor: its code, or the sentinel 0xFFFF (R171, R177). -/
def codeField : Descriptor → Half
  | .defined code _ => BitVec.ofNat 16 code
  | .fallback _ => 0xFFFF#16
  | .universal => 0xFFFF#16

/-- The payload length of a descriptor (R171). -/
def descriptorLen (c : Cfg) : Descriptor → PayLen
  | .defined _ length => length
  | .fallback band => fbLen c band
  | .universal => c.univLen

/-- The 16-bit length field: `n`, or 0xFFFF for `VAR` (R178). -/
def lenField : PayLen → Half
  | .var => 0xFFFF#16
  | .fixed n => BitVec.ofNat 16 n

/-- The descriptor an id names, if any (R171). -/
def descriptorOf (c : Cfg) (id : Half) : Option Descriptor :=
  if id.toNat ≤ 255 then (findDef c id.toNat).map (fun e => .defined id.toNat e.length)
  else if id.toNat ≤ 259 then some (.fallback (Fin.ofNat 4 (id.toNat - 256)))
  else if id.toNat = 260 then some .universal
  else none

/-- `OPC_LOOKUP value` (R174). -/
def execOpcLookup (value : Value) (s : State) : Host.Outcome State Fault Refusal :=
  runCommand (freeGate true)
    (fun s =>
      let d := classify s.cfg (signedOperand value)
      s.respond .ok (pair (descriptorId d) (lenField (descriptorLen s.cfg d)))) s

/-- The result of `OPC_ISVAR`: 1 exactly when the length is `VAR` (R176). -/
def isVarResult (l : PayLen) : Value := if l = .var then 1#32 else 0#32

/-- `OPC_ISVAR id` (R176). -/
def execOpcIsvar (id : Half) (s : State) : Host.Outcome State Fault Refusal :=
  match descriptorOf s.cfg id with
  | none => runCommand (freeGate false) (fun s => s) s
  | some d =>
    runCommand (freeGate true)
      (fun s => s.respond .ok (isVarResult (descriptorLen s.cfg d))) s

/-- `OPC_DESC id` (R177). -/
def execOpcDesc (id : Half) (s : State) : Host.Outcome State Fault Refusal :=
  match descriptorOf s.cfg id with
  | none => runCommand (freeGate false) (fun s => s) s
  | some d =>
    runCommand (freeGate true)
      (fun s => s.respond .ok (pair (codeField d) (lenField (descriptorLen s.cfg d)))) s

end Sys2Proof.Machine
end

