-- ==== Sys2Proof/Machine/Dispatch.lean ====
section
/-!
DEFINITION. The meaning of every command, one arm per row of the opcode map (30_encoding.md R74).
-/
namespace Sys2Proof.Machine

def exec (i : Instr) (s : State) : Host.Outcome State Fault Refusal :=
  match i with
  | .bufInit len => Sys2Proof.Machine.execBufInit len s
  | .bufPut start count data => Sys2Proof.Machine.execBufPut start count data s
  | .bitGet index => Sys2Proof.Machine.execBitGet index s
  | .bitSet index => Sys2Proof.Machine.execBitSet index s
  | .bitFlip index => Sys2Proof.Machine.execBitFlip index s
  | .bitNsb start => Sys2Proof.Machine.execBitNsb start s
  | .bufGetr start stop w => Sys2Proof.Machine.execBufGetr start stop w s
  | .crcCorr t ms cs seed => Sys2Proof.Machine.execCrcCorr t ms cs seed s
  | .crc9Chk t ms cs => Sys2Proof.Machine.execCrc9Chk t ms cs s
  | .crc8Calc start count => Sys2Proof.Machine.execCrc8Calc start count s
  | .opcLookup value => Sys2Proof.Machine.execOpcLookup value s
  | .opcIsvar id => Sys2Proof.Machine.execOpcIsvar id s
  | .opcDesc id => Sys2Proof.Machine.execOpcDesc id s
  | .frmLocate => Sys2Proof.Machine.execFrmLocate s
  | .frmHassub => Sys2Proof.Machine.execFrmHassub s
  | .frmGetsub => Sys2Proof.Machine.execFrmGetsub s
  | .frmPayload seg => Sys2Proof.Machine.execFrmPayload seg s
  | .rdReg sel => Sys2Proof.Machine.execRdReg sel s

end Sys2Proof.Machine
end

