-- ==== Sys2Proof/Decode.lean ====
section
/-!
DEFINITION. The command encoding (30_encoding.md): fields (R71), formats and their fixed bits (R73),
the opcode map (R74), decoding with the two illegal cases of R76, the encoder, and the byte order of
a transported word (20_memory.md R54).
-/
namespace Sys2Proof

/-- Why a word is no command. -/
inductive DecodeReject where
  /-- R76 (a): the `OPC` value is not in the opcode map. -/
  | unassignedOpcode (opc : BitVec 8)
  /-- R76 (b): a reserved field of the named command is not zero. -/
  | reservedField (mnemonic : String)
  /-- Fewer than the eight bytes of a command word (R70) were given. -/
  | shortWord
  deriving DecidableEq, Repr

/-- The formats of R73. -/
inductive Format where
  | n
  | a
  | d
  | v
  | ab
  | dab
  | dabc
  | dav
  deriving DecidableEq, Repr

/-- The mask of fixed bits of a format, `OPC` included (R73, last column). -/
def formatMask : Format → CmdWord
  | .n => 0xFFFFFFFFFFFFFFFF#64
  | .a => 0xFFFF0000FFFFFFFF#64
  | .d => 0xFF00FFFFFFFFFFFF#64
  | .v => 0xFFFFFFFF00000000#64
  | .ab => 0xFFFF00000000FFFF#64
  | .dab => 0xFF0000000000FFFF#64
  | .dabc => 0xFF00000000000000#64
  | .dav => 0xFF00000000000000#64

/-- The reserved bits of a format: its fixed bits below `OPC`. They must be zero (R73, R76). -/
def reservedMask (f : Format) : CmdWord :=
  formatMask f &&& 0x00FFFFFFFFFFFFFF#64

/-- Field `OPC`, bits [63:56] (R71). -/
def wordOpc (w : CmdWord) : BitVec 8 := w.extractLsb' 56 8

/-- Field `D`, bits [55:48] (R71). -/
def wordD (w : CmdWord) : BitVec 8 := w.extractLsb' 48 8

/-- Field `A`, bits [47:32] (R71). -/
def wordA (w : CmdWord) : Half := w.extractLsb' 32 16

/-- Field `B`, bits [31:16] (R71). -/
def wordB (w : CmdWord) : Half := w.extractLsb' 16 16

/-- Field `C`, bits [15:0] (R71). -/
def wordC (w : CmdWord) : Half := w.extractLsb' 0 16

/-- Field `V`, bits [31:0]: the same bits as `{B, C}` (R71). -/
def wordV (w : CmdWord) : Value := w.extractLsb' 0 32

/-- The command `i`, unless the word has a nonzero reserved field of format `f` (R76 (b)). -/
def acceptFormat (f : Format) (mnemonic : String) (w : CmdWord) (i : Instr) :
    Except DecodeReject Instr :=
  if w &&& reservedMask f = 0#64 then .ok i else .error (.reservedField mnemonic)

/-- The decoder: the opcode map of R74 with the illegal encodings of R76. Total on all words. -/
def decode (w : CmdWord) : Except DecodeReject Instr :=
  match (wordOpc w).toNat with
  | 0x01 => acceptFormat .a "BUF_INIT" w (.bufInit (wordA w))
  | 0x02 => acceptFormat .dav "BUF_PUT" w (.bufPut (wordA w) (wordD w) (wordV w))
  | 0x03 => acceptFormat .a "BIT_GET" w (.bitGet (wordA w))
  | 0x04 => acceptFormat .a "BIT_SET" w (.bitSet (wordA w))
  | 0x05 => acceptFormat .a "BIT_FLIP" w (.bitFlip (wordA w))
  | 0x06 => acceptFormat .a "BIT_NSB" w (.bitNsb (wordA w))
  | 0x07 => acceptFormat .dab "BUF_GETR" w (.bufGetr (wordA w) (wordB w) (wordD w))
  | 0x10 => acceptFormat .dabc "CRC_CORR" w (.crcCorr (wordD w) (wordA w) (wordB w) (wordC w))
  | 0x11 => acceptFormat .dab "CRC9_CHK" w (.crc9Chk (wordD w) (wordA w) (wordB w))
  | 0x12 => acceptFormat .ab "CRC8_CALC" w (.crc8Calc (wordA w) (wordB w))
  | 0x20 => acceptFormat .v "OPC_LOOKUP" w (.opcLookup (wordV w))
  | 0x21 => acceptFormat .a "OPC_ISVAR" w (.opcIsvar (wordA w))
  | 0x22 => acceptFormat .a "OPC_DESC" w (.opcDesc (wordA w))
  | 0x30 => acceptFormat .n "FRM_LOCATE" w .frmLocate
  | 0x31 => acceptFormat .n "FRM_HASSUB" w .frmHassub
  | 0x32 => acceptFormat .n "FRM_GETSUB" w .frmGetsub
  | 0x33 => acceptFormat .d "FRM_PAYLOAD" w (.frmPayload (wordD w))
  | 0x40 => acceptFormat .d "RD_REG" w (.rdReg (wordD w))
  | _ => .error (.unassignedOpcode (wordOpc w))

/-- A word from its fields `OPC`, `D`, `A`, `B`, `C` (R71). -/
def assembleDABC (opc d : BitVec 8) (a b c : Half) : CmdWord := opc ++ d ++ a ++ b ++ c

/-- A word from its fields `OPC`, `D`, `A`, `V` (R71). -/
def assembleDAV (opc d : BitVec 8) (a : Half) (v : Value) : CmdWord := opc ++ d ++ a ++ v

/-- The encoder: the opcode map of R74, reserved fields zero (R73). -/
def encode : Instr → CmdWord
  | .bufInit len => assembleDABC 0x01#8 0#8 len 0#16 0#16
  | .bufPut start count data => assembleDAV 0x02#8 count start data
  | .bitGet i => assembleDABC 0x03#8 0#8 i 0#16 0#16
  | .bitSet i => assembleDABC 0x04#8 0#8 i 0#16 0#16
  | .bitFlip i => assembleDABC 0x05#8 0#8 i 0#16 0#16
  | .bitNsb start => assembleDABC 0x06#8 0#8 start 0#16 0#16
  | .bufGetr start stop w => assembleDABC 0x07#8 w start stop 0#16
  | .crcCorr t ms cs seed => assembleDABC 0x10#8 t ms cs seed
  | .crc9Chk t ms cs => assembleDABC 0x11#8 t ms cs 0#16
  | .crc8Calc start count => assembleDABC 0x12#8 0#8 start count 0#16
  | .opcLookup value => assembleDAV 0x20#8 0#8 0#16 value
  | .opcIsvar id => assembleDABC 0x21#8 0#8 id 0#16 0#16
  | .opcDesc id => assembleDABC 0x22#8 0#8 id 0#16 0#16
  | .frmLocate => assembleDABC 0x30#8 0#8 0#16 0#16 0#16
  | .frmHassub => assembleDABC 0x31#8 0#8 0#16 0#16 0#16
  | .frmGetsub => assembleDABC 0x32#8 0#8 0#16 0#16 0#16
  | .frmPayload seg => assembleDABC 0x33#8 seg 0#16 0#16 0#16
  | .rdReg sel => assembleDABC 0x40#8 sel 0#16 0#16 0#16

/-- The format of each command (R74). -/
def formatOf : Instr → Format
  | .bufInit _ => .a
  | .bufPut _ _ _ => .dav
  | .bitGet _ => .a
  | .bitSet _ => .a
  | .bitFlip _ => .a
  | .bitNsb _ => .a
  | .bufGetr _ _ _ => .dab
  | .crcCorr _ _ _ _ => .dabc
  | .crc9Chk _ _ _ => .dab
  | .crc8Calc _ _ => .ab
  | .opcLookup _ => .v
  | .opcIsvar _ => .a
  | .opcDesc _ => .a
  | .frmLocate => .n
  | .frmHassub => .n
  | .frmGetsub => .n
  | .frmPayload _ => .d
  | .rdReg _ => .d

/-- The column `match` of R74: `OPC << 56`. -/
def matchOf : Instr → CmdWord
  | .bufInit _ => 0x0100000000000000#64
  | .bufPut _ _ _ => 0x0200000000000000#64
  | .bitGet _ => 0x0300000000000000#64
  | .bitSet _ => 0x0400000000000000#64
  | .bitFlip _ => 0x0500000000000000#64
  | .bitNsb _ => 0x0600000000000000#64
  | .bufGetr _ _ _ => 0x0700000000000000#64
  | .crcCorr _ _ _ _ => 0x1000000000000000#64
  | .crc9Chk _ _ _ => 0x1100000000000000#64
  | .crc8Calc _ _ => 0x1200000000000000#64
  | .opcLookup _ => 0x2000000000000000#64
  | .opcIsvar _ => 0x2100000000000000#64
  | .opcDesc _ => 0x2200000000000000#64
  | .frmLocate => 0x3000000000000000#64
  | .frmHassub => 0x3100000000000000#64
  | .frmGetsub => 0x3200000000000000#64
  | .frmPayload _ => 0x3300000000000000#64
  | .rdReg _ => 0x4000000000000000#64

/-- The eight bytes of a word as a transport carries them: bits [63:56] first (20_memory.md R54). -/
def wordBytes (w : CmdWord) : List Byte :=
  [w.extractLsb' 56 8, w.extractLsb' 48 8, w.extractLsb' 40 8, w.extractLsb' 32 8,
   w.extractLsb' 24 8, w.extractLsb' 16 8, w.extractLsb' 8 8, w.extractLsb' 0 8]

/-- The word of eight transported bytes, most significant byte first (20_memory.md R54). -/
def bytesWord (b7 b6 b5 b4 b3 b2 b1 b0 : Byte) : CmdWord :=
  b7 ++ b6 ++ b5 ++ b4 ++ b3 ++ b2 ++ b1 ++ b0

/-- The decoder on transported bytes: it takes exactly 64 bits (R70) and gives back the rest. -/
def decodeBytes : List Byte → Except DecodeReject (Instr × List Byte)
  | b7 :: b6 :: b5 :: b4 :: b3 :: b2 :: b1 :: b0 :: rest =>
    match decode (bytesWord b7 b6 b5 b4 b3 b2 b1 b0) with
    | .ok i => .ok (i, rest)
    | .error r => .error r
  | _ => .error .shortWord

/-- The command word whose low `nbits` bits are those of `w`, every bit above being 0. -/
def tableWord (nbits w : Nat) : CmdWord := BitVec.ofNat 64 (w % 2 ^ nbits)

/-- The instruction the decoder reads from the word with the bits of `w`, laid out as bytes in the
order of 20_memory.md R54. -/
def decodeTableWord (nbits w : Nat) : Option Instr :=
  match decodeBytes (wordBytes (tableWord nbits w)) with
  | .ok (i, _) => some i
  | .error _ => none

end Sys2Proof
end

