-- ==== Sys2Proof/Machine/Port.lean ====
section
/-!
DEFINITION. Taking the host's next input (60_exceptions.md R230, 70_reset_and_hazards.md R270; log 3,
log 4): what a step finds at the port, and presenting a word there.
-/
namespace Sys2Proof.Machine

/-- What the port holds for the next step. -/
inductive Fetched where
  /-- No input: the block waits (70_reset_and_hazards.md R270, 60_exceptions.md R250). -/
  | nothing
  /-- Reset with a configuration. -/
  | reset (c : Cfg)
  /-- A command the decoder reads. -/
  | command (i : Instr)
  /-- A word the decoder refuses (30_encoding.md R76). -/
  | illegal
  deriving DecidableEq, Repr

/-- What the first input of a port is. -/
def fetch : List HostInput → Fetched
  | [] => .nothing
  | .reset c :: _ => .reset c
  | .command w :: _ =>
    match decode w with
    | .ok i => .command i
    | .error _ => .illegal

/-- The state with the first input taken off the port. -/
def consume (s : State) : State := s.withPort s.port.tail

/-- Step 1 of 60_exceptions.md R240: a word that is no command answers `ILLEGAL_COMMAND`. -/
def refuseWord (s : State) : State := s.raise .illegalCommand

/-- Reset as an input (70_reset_and_hazards.md R270): all state of the instance is set anew from `c`.
The host's further inputs are not the block's to clear (log 4). -/
def applyReset (c : Cfg) (s : State) : State := (State.resetWith c).withPort s.port

/-- The word with the bits of `w` presented as the host's next command (log 3). -/
def presentWord (s : State) (nbits w : Nat) : State :=
  s.withPort (.command (tableWord nbits w) :: s.port)

end Sys2Proof.Machine
end

