-- ==== Sys2Proof/Machine/Step.lean ====
section
/-!
DEFINITION. One step: the host's next input is taken off the port and carried out as one atomic step
(60_exceptions.md R230, 20_memory.md R57).
-/
namespace Sys2Proof.Machine

/-- One step of the block (60_exceptions.md R230, R240, R250). -/
def step (s : State) : Host.Outcome State Fault Refusal :=
  match fetch s.port with
  | .nothing => .next s
  | .reset c => .next (applyReset c (consume s))
  | .command i => exec i (consume s)
  | .illegal => .next (refuseWord (consume s))

/-- `s` with the instruction whose low `nbits` bits are those of `w` presented at the command port, so
that the next step runs it (log 3). -/
def State.withFetchWord (s : State) (nbits w : Nat) : State :=
  presentWord s nbits w

end Sys2Proof.Machine
end

