-- ==== Sys2Proof/Machine/Assembler.lean ====
section
/-!
DEFINITION. The assembler syntax (30_encoding.md R77) and the pseudo-commands (R78). Neither is a
command of its own: both give commands of `Sys2Proof.Instr`. Spacing is the model's choice (log 15).
-/
namespace Sys2Proof.Machine

/-- A number as an unsigned field of `n` bits, if it fits (R72). -/
def asField (n x : Nat) : Option (BitVec n) :=
  if x < 2 ^ n then some (BitVec.ofNat n x) else none

/-- The value of a digit in a base up to 16. -/
def digitValue (base : Nat) (c : Char) : Option Nat :=
  let v :=
    if '0'.toNat ≤ c.toNat ∧ c.toNat ≤ '9'.toNat then c.toNat - '0'.toNat
    else if 'a'.toNat ≤ c.toNat ∧ c.toNat ≤ 'f'.toNat then c.toNat - 'a'.toNat + 10
    else if 'A'.toNat ≤ c.toNat ∧ c.toNat ≤ 'F'.toNat then c.toNat - 'A'.toNat + 10
    else 16
  if v < base then some v else none

/-- The digits of a number, the most significant first, after the value `acc` of those before. -/
def parseDigits (base : Nat) : List Char → Nat → Option Nat
  | [], acc => some acc
  | c :: cs, acc => (digitValue base c).bind (fun d => parseDigits base cs (acc * base + d))

/-- A decimal or `0x` hexadecimal number (R77). -/
def parseNat : List Char → Option Nat
  | [] => none
  | ['0', 'x'] => none
  | '0' :: 'x' :: cs => parseDigits 16 cs 0
  | cs => parseDigits 10 cs 0

/-- A number that may have a leading `-`, as `OPC_LOOKUP` takes it (R77). -/
def parseSigned : List Char → Option Int
  | '-' :: cs => (parseNat cs).map (fun n => -(n : Int))
  | cs => (parseNat cs).map (fun n => (n : Int))

/-- The selector a register name spells (R77, 10_state.md R36). -/
def registerNumber (name : String) : Option Nat :=
  match name with
  | "LEN" => some 0
  | "CCOUNT" => some 1
  | "VERDICT" => some 2
  | "FLAGS" => some 3
  | "FCLASS" => some 4
  | "FAULT_CAUSE" => some 5
  | "FAULT_INFO" => some 6
  | "CAP" => some 7
  | "SUBVIEW" => some 8
  | "CFG_CAUSE" => some 9
  | _ => none

/-- An operand as an unsigned field of `n` bits. -/
def operand (n : Nat) (tok : List Char) : Option (BitVec n) :=
  (parseNat tok).bind (asField n)

/-- An `RD_REG` operand: a selector or a register name (R77). -/
def selectorOperand (tok : List Char) : Option (BitVec 8) :=
  match registerNumber (String.ofList tok) with
  | some n => asField 8 n
  | none => operand 8 tok

/-- The command of a mnemonic and its operands in the order of R77. -/
def assembleTokens (mnemonic : String) (ops : List (List Char)) : Option Instr :=
  match mnemonic, ops with
  | "BUF_INIT", [a] => (operand 16 a).map .bufInit
  | "BUF_PUT", [a, d, v] => do
    return .bufPut (← operand 16 a) (← operand 8 d) (← operand 32 v)
  | "BIT_GET", [a] => (operand 16 a).map .bitGet
  | "BIT_SET", [a] => (operand 16 a).map .bitSet
  | "BIT_FLIP", [a] => (operand 16 a).map .bitFlip
  | "BIT_NSB", [a] => (operand 16 a).map .bitNsb
  | "BUF_GETR", [a, b, d] => do
    return .bufGetr (← operand 16 a) (← operand 16 b) (← operand 8 d)
  | "CRC_CORR", [d, a, b, c] => do
    return .crcCorr (← operand 8 d) (← operand 16 a) (← operand 16 b) (← operand 16 c)
  | "CRC9_CHK", [d, a, b] => do
    return .crc9Chk (← operand 8 d) (← operand 16 a) (← operand 16 b)
  | "CRC8_CALC", [a, b] => do
    return .crc8Calc (← operand 16 a) (← operand 16 b)
  | "OPC_LOOKUP", [v] => (parseSigned v).map (fun x => .opcLookup (BitVec.ofInt 32 x))
  | "OPC_ISVAR", [a] => (operand 16 a).map .opcIsvar
  | "OPC_DESC", [a] => (operand 16 a).map .opcDesc
  | "FRM_LOCATE", [] => some .frmLocate
  | "FRM_HASSUB", [] => some .frmHassub
  | "FRM_GETSUB", [] => some .frmGetsub
  | "FRM_PAYLOAD", [d] => (operand 8 d).map .frmPayload
  | "RD_REG", [d] => (selectorOperand d).map .rdReg
  | _, _ => none

/-- A text without the spaces around it. -/
def trimSpaces (cs : List Char) : List Char :=
  ((cs.dropWhile (fun c => c == ' ')).reverse.dropWhile (fun c => c == ' ')).reverse

/-- One line `MNEMONIC operand, operand, ...` as a command (R77). -/
def assembleLine (line : List Char) : Option Instr :=
  let text := trimSpaces line
  let mnemonic := String.ofList (text.takeWhile (fun c => c != ' '))
  let rest := trimSpaces (text.dropWhile (fun c => c != ' '))
  if rest.isEmpty then assembleTokens mnemonic []
  else assembleTokens mnemonic ((rest.splitOn ',').map trimSpaces)

/-- The pseudo-commands of R78. -/
inductive Pseudo where
  | validateCcitt80 (ms seed : Half)
  | bitClr (i : Half)
  | load (start : Half) (n value : Nat)
  | nop
  deriving DecidableEq, Repr

/-- The chunks of `LOAD`: 32 bits at a time from the most significant down, the last one the bits that
remain (R78). The first argument bounds the number of chunks. -/
def loadChunks (value : Nat) : Nat → Nat → Nat → Option (List Instr)
  | 0, _, _ => none
  | k + 1, start, n =>
    (asField 16 start).bind fun a =>
      if n ≤ 32 then
        some [.bufPut a (BitVec.ofNat 8 n) (BitVec.ofNat 32 (value % 2 ^ n))]
      else
        (loadChunks value k (start + 32) (n - 32)).map fun is =>
          .bufPut a 32#8 (BitVec.ofNat 32 (value / 2 ^ (n - 32) % 2 ^ 32)) :: is

/-- The expansion of a pseudo-command (R78); none where an operand of the expansion has no field value
or `LOAD` is given no `n`-bit value with `n > 32`. -/
def expandPseudo : Pseudo → Option (List Instr)
  | .validateCcitt80 ms seed =>
    (asField 16 (ms.toNat + 80)).map fun cs => [.crcCorr 0#8 ms cs seed]
  | .bitClr i => some [.bufPut i 1#8 0#32]
  | .load start n value =>
    if 32 < n ∧ value < 2 ^ n then loadChunks value n start.toNat n else none
  | .nop => some [.rdReg 0#8]

end Sys2Proof.Machine
end

