-- ==== Sys2Proof/WellFormed.lean ====
section
/-!
DEFINITION. The part of the legal operand sets of 30_encoding.md R75 that does not depend on the
configuration. Every bit pattern of an operand can be encoded, so a command that is not well-formed
still has a word; the block answers it `ILLEGAL_OPERAND` (60_exceptions.md R240, step 3).
-/
namespace Sys2Proof

/-- The operands lie in the sets of 30_encoding.md R75, as far as those do not name `Cfg`. -/
def Instr.wellFormed : Instr → Bool
  | .bufInit len => 1 ≤ len.toNat
  | .bufPut _ count data => 1 ≤ count.toNat && count.toNat ≤ 32 && data.toNat < 2 ^ count.toNat
  | .bitGet _ => true
  | .bitSet _ => true
  | .bitFlip _ => true
  | .bitNsb _ => true
  | .bufGetr _ _ w => 1 ≤ w.toNat && w.toNat ≤ 32
  | .crcCorr _ _ _ _ => true
  | .crc9Chk _ _ _ => true
  | .crc8Calc _ count => 1 ≤ count.toNat
  | .opcLookup _ => true
  | .opcIsvar id => id.toNat ≤ 260
  | .opcDesc id => id.toNat ≤ 260
  | .frmLocate => true
  | .frmHassub => true
  | .frmGetsub => true
  | .frmPayload seg => seg.toNat == 1 || seg.toNat == 2
  | .rdReg sel => sel.toNat ≤ 9

end Sys2Proof
end

