-- ==== Sys2Proof/Safety.lean ====
section
/-!
DEFINITION. The terms claims are stated in: when a command may run, what a legal configuration is, the
invariant of 10_state.md R39, the state machine of 44_control.md R223, and spec-side forms of the
functions a meaning computes. No meaning uses anything of this file.
-/
namespace Sys2Proof.Machine

/-! ## When a command may run -/

/-- The configuration is valid, the frame context is not aborted and a buffer is loaded: no check of
60_exceptions.md R240 before step 5 refuses a command with legal operands, and a buffer is there. -/
abbrev Ready (s : State) : Prop :=
  s.cfgFault = false ∧ s.aborted = false ∧ s.len ≠ 0#16

/-- `Ready`, in the write phase (40_bit_buffer.md R101). -/
abbrev Writable (s : State) : Prop :=
  Ready s ∧ s.verdict = .unset

/-- `Ready`, with a frame constructed (43_frame_sync.md R196). -/
abbrev Framed (s : State) : Prop :=
  Ready s ∧ s.fvalid = true

/-- The frame-dependent commands (60_exceptions.md R237). -/
def frameDependent : Instr → Bool
  | .bufInit _ => false
  | .opcLookup _ => false
  | .opcIsvar _ => false
  | .opcDesc _ => false
  | .rdReg _ => false
  | _ => true

/-- The commands that change nothing but `STATUS` and `RESULT` (20_memory.md R58). -/
def readOnly : Instr → Bool
  | .bitGet _ => true
  | .bitNsb _ => true
  | .bufGetr _ _ _ => true
  | .crc8Calc _ _ => true
  | .frmHassub => true
  | .frmPayload _ => true
  | .opcLookup _ => true
  | .opcIsvar _ => true
  | .opcDesc _ => true
  | .rdReg _ => true
  | _ => false

/-- `id` names a descriptor (42_opcode_classifier.md R171). -/
abbrev namesDescriptor (c : Cfg) (id : Half) : Prop :=
  (id.toNat ≤ 255 ∧ id.toNat ∈ c.opcDef.map (fun e => e.code))
    ∨ (256 ≤ id.toNat ∧ id.toNat ≤ 260)

/-- The legal operand values of 30_encoding.md R75. -/
def operandsLegal (c : Cfg) : Instr → Prop
  | .bufInit len => 1 ≤ len.toNat ∧ len.toNat ≤ c.cap
  | .bufPut _ count data => 1 ≤ count.toNat ∧ count.toNat ≤ 32 ∧ data.toNat < 2 ^ count.toNat
  | .bufGetr _ _ w => 1 ≤ w.toNat ∧ w.toNat ≤ 32
  | .crcCorr t _ _ seed => ∃ T, c.corrTables[t.toNat]? = some T ∧ seed.toNat < 2 ^ T.width
  | .crc9Chk t _ _ => t.toNat < c.crc9Tables.length
  | .crc8Calc _ count => 1 ≤ count.toNat
  | .opcIsvar id => namesDescriptor c id
  | .opcDesc id => namesDescriptor c id
  | .frmPayload seg => seg = 1#8 ∨ seg = 2#8
  | .rdReg sel => sel.toNat ≤ 9
  | _ => True

/-- The statuses beside `OK` that 60_exceptions.md R232 marks for a decoded command (its column
`ILL_CMD` is about the word, not the command). -/
def canRaise : Instr → List Status
  | .bufInit _ => [.illegalOperand, .configFault]
  | .bufPut _ _ _ => [.rangeError, .stateError, .illegalOperand, .frameAborted, .configFault]
  | .bitGet _ => [.indexError, .stateError, .frameAborted, .configFault]
  | .bitSet _ => [.indexError, .stateError, .frameAborted, .configFault]
  | .bitFlip _ => [.indexError, .stateError, .frameAborted, .configFault]
  | .bitNsb _ => [.stateError, .frameAborted, .configFault]
  | .bufGetr _ _ _ => [.rangeError, .stateError, .illegalOperand, .frameAborted, .configFault]
  | .crcCorr _ _ _ _ => [.rangeError, .stateError, .illegalOperand, .frameAborted, .configFault]
  | .crc9Chk _ _ _ => [.rangeError, .stateError, .illegalOperand, .frameAborted, .configFault]
  | .crc8Calc _ _ => [.rangeError, .stateError, .illegalOperand, .frameAborted, .configFault]
  | .opcLookup _ => [.configFault]
  | .opcIsvar _ => [.illegalOperand, .configFault]
  | .opcDesc _ => [.illegalOperand, .configFault]
  | .frmLocate => [.stateError, .frameAborted, .configFault]
  | .frmHassub => [.stateError, .frameAborted, .configFault]
  | .frmGetsub => [.stateError, .frameAborted, .configFault]
  | .frmPayload _ => [.stateError, .illegalOperand, .frameAborted, .configFault]
  | .rdReg _ => [.illegalOperand]

/-- The offending value a frame-fatal fault of a command names (60_exceptions.md R236). -/
def faultOperand : Instr → Half
  | .bufPut start _ _ => start
  | .bitGet i => i
  | .bitSet i => i
  | .bitFlip i => i
  | .bufGetr start _ _ => start
  | .crcCorr _ ms _ _ => ms
  | .crc9Chk _ ms _ => ms
  | .crc8Calc start _ => start
  | _ => 0#16

/-! ## Encoding -/

/-- The format the opcode map gives an `OPC` value, none when it is unassigned (30_encoding.md R74). -/
def assignedFormat (opc : Nat) : Option Format :=
  [(0x01, Format.a), (0x02, .dav), (0x03, .a), (0x04, .a), (0x05, .a), (0x06, .a), (0x07, .dab),
   (0x10, .dabc), (0x11, .dab), (0x12, .ab), (0x20, .v), (0x21, .a), (0x22, .a), (0x30, .n),
   (0x31, .n), (0x32, .n), (0x33, .d), (0x40, .d)].lookup opc

/-- The unassigned `OPC` values as 30_encoding.md R76 (a) lists them. -/
abbrev unassignedOpc (opc : Nat) : Prop :=
  opc = 0x00 ∨ (0x08 ≤ opc ∧ opc ≤ 0x0F) ∨ (0x13 ≤ opc ∧ opc ≤ 0x1F) ∨ (0x23 ≤ opc ∧ opc ≤ 0x2F)
    ∨ (0x34 ≤ opc ∧ opc ≤ 0x3F) ∨ (0x41 ≤ opc ∧ opc ≤ 0xFF)

/-! ## Configurations -/

/-- The checksum width and the lengths of a correcting table are legal
(70_reset_and_hazards.md R272, test 2). -/
abbrev corrShapeLegal (T : CorrTable) : Prop :=
  1 ≤ T.width ∧ T.width ≤ 16 ∧ 1 ≤ T.len ∧ T.syn.length = T.len

/-- The entries of a correcting table fit its checksum (70_reset_and_hazards.md R272, test 3). -/
abbrev corrEntriesFit (T : CorrTable) : Prop := ∀ e ∈ T.syn, e < 2 ^ T.width

/-- A legal correcting table (00_scope.md R8). -/
abbrev corrTableLegal (T : CorrTable) : Prop :=
  corrShapeLegal T ∧ corrEntriesFit T ∧ T.syn.Nodup

/-- The lengths of a CRC-9 table are legal (70_reset_and_hazards.md R272, test 5). -/
abbrev crc9ShapeLegal (U : Crc9Table) : Prop := 1 ≤ U.len ∧ U.syn.length = U.len

/-- The entries of a CRC-9 table fit 9 bits (70_reset_and_hazards.md R272, test 6). -/
abbrev crc9EntriesFit (U : Crc9Table) : Prop := ∀ e ∈ U.syn, e < 2 ^ 9

/-- A legal CRC-9 table (00_scope.md R8). -/
abbrev crc9TableLegal (U : Crc9Table) : Prop :=
  crc9ShapeLegal U ∧ crc9EntriesFit U ∧ U.syn.Nodup

/-- A legal payload length (00_scope.md R8). -/
abbrev payLenLegal (l : PayLen) : Prop := l = .var ∨ ∃ n ≤ 0xFFFE, l = .fixed n

/-- A legal frame class: 10_state.md R33 with the tests of 70_reset_and_hazards.md R272. -/
abbrev syncEntryLegal (cap : Nat) (e : SyncEntry) : Prop :=
  1 ≤ e.sl ∧ e.sl ≤ 64 ∧ e.pat < 2 ^ e.sl ∧ 1 ≤ e.p1Len ∧ (e.hasSub = true → 1 ≤ e.subLen)
    ∧ (∀ r ∈ presentRegions e, r.1 + r.2 ≤ cap)
    ∧ (presentRegions e).Pairwise (fun r q => r.1 + r.2 ≤ q.1 ∨ q.1 + q.2 ≤ r.1)

/-- `CAP` is legal (00_scope.md R8). -/
abbrev capLegal (c : Cfg) : Prop := 1 ≤ c.cap ∧ c.cap ≤ 65535

/-- There are 1 to 256 tables (00_scope.md R8). -/
abbrev tableCountLegal {α : Type} (Ts : List α) : Prop := 1 ≤ Ts.length ∧ Ts.length ≤ 256

/-- `CORR_TABLES` is legal (00_scope.md R8). -/
abbrev corrTablesLegal (c : Cfg) : Prop :=
  tableCountLegal c.corrTables ∧ ∀ T ∈ c.corrTables, corrTableLegal T

/-- `CRC9_TABLES` is legal (00_scope.md R8). -/
abbrev crc9TablesLegal (c : Cfg) : Prop :=
  tableCountLegal c.crc9Tables ∧ ∀ U ∈ c.crc9Tables, crc9TableLegal U

/-- `CRC9_FAIL_INC` is legal (00_scope.md R8). -/
abbrev failIncLegal (c : Cfg) : Prop := c.crc9FailInc = 0 ∨ c.crc9FailInc = 2

/-- A legal entry of `OPC_DEF` (00_scope.md R8). -/
abbrev opcDefLegal (e : OpcDef) : Prop := e.code ≤ 255 ∧ payLenLegal e.length

/-- Every entry of `OPC_DEF` is legal by itself (00_scope.md R8). -/
abbrev opcDefsLegal (c : Cfg) : Prop := ∀ e ∈ c.opcDef, opcDefLegal e

/-- No two entries of `OPC_DEF` have the same code (00_scope.md R8). -/
abbrev opcCodesDistinct (c : Cfg) : Prop := (c.opcDef.map (fun e => e.code)).Nodup

/-- The fallback lengths are legal (00_scope.md R8). -/
abbrev fallbackLensLegal (c : Cfg) : Prop :=
  payLenLegal c.fbLen0 ∧ payLenLegal c.fbLen1 ∧ payLenLegal c.fbLen2 ∧ payLenLegal c.fbLen3
    ∧ payLenLegal c.univLen

/-- Every entry of `SYNC_TABLE` is legal by itself, and their number is (00_scope.md R8). -/
abbrev syncTableLegal (c : Cfg) : Prop :=
  1 ≤ c.syncTable.length ∧ c.syncTable.length ≤ 255 ∧ ∀ e ∈ c.syncTable, syncEntryLegal c.cap e

/-- No two entries of `SYNC_TABLE` have the same `(SYNC_OFF, SL, PAT)` (10_state.md R33). -/
abbrev syncKeysDistinct (c : Cfg) : Prop := (c.syncTable.map syncKey).Nodup

/-- `x` is the first element of the list, in its order, that is not legal. -/
def firstIllegal {α : Type} (legal : α → Prop) (xs : List α) (x : α) : Prop :=
  ∃ before after, xs = before ++ x :: after ∧ (∀ y ∈ before, legal y) ∧ ¬ legal x

/-- A legal configuration (00_scope.md R8, 70_reset_and_hazards.md R272). -/
def cfgLegal (c : Cfg) : Prop :=
  capLegal c ∧ corrTablesLegal c ∧ crc9TablesLegal c ∧ failIncLegal c ∧ opcDefsLegal c
    ∧ opcCodesDistinct c ∧ fallbackLensLegal c ∧ syncTableLegal c ∧ syncKeysDistinct c

/-! ## The invariant -/

/-- The invariant of every reachable state: 10_state.md R39 (a) to (f), and what R23, R24, R29 to R32,
R35 and 43_frame_sync.md R192 say of the fields. -/
structure Inv (s : State) : Prop where
  /-- The buffer is in canonical form (log 1). -/
  bufCanonical : Memory.wf s.buf
  /-- Only bits below `LEN` are 1 (R23). -/
  bufBelowLen : ∀ c ∈ s.buf, c.1 < s.len.toNat
  /-- `LEN <= CAP` (R24). -/
  lenWithinCap : s.len.toNat ≤ s.cfg.cap
  /-- `CFG_CAUSE` is the check's code (R32). -/
  causeOfCheck : s.cfgCause = BitVec.ofNat 8 (checkCfg s.cfg)
  /-- `CFGFAULT = 1` exactly when the check fails (R32). -/
  faultOfCheck : s.cfgFault = (checkCfg s.cfg != 0)
  /-- A block that refuses its configuration has loaded nothing (60_exceptions.md R238). -/
  faultyIsEmpty : s.cfgFault = true → s.len = 0#16
  /-- R39 (a), and an aborted context has a buffer (R24). -/
  emptyContext : s.len = 0#16 →
    s.verdict = .unset ∧ s.fvalid = false ∧ s.subc = false ∧ s.ccount = 0#32 ∧ s.aborted = false
  /-- R39 (b). -/
  frameValidated : s.fvalid = true →
    (s.verdict = .passed ∨ s.verdict = .corrected) ∧ s.fclass.toNat < s.cfg.syncTable.length
  /-- Every region of the frame's class lies below `LEN` (43_frame_sync.md R192). -/
  frameFits : s.fvalid = true → regionsEnd (currentClass s) ≤ s.len.toNat
  /-- `FCLASS` is 0 without a frame (R30). -/
  noFrameNoClass : s.fvalid = false → s.fclass = 0#8
  /-- R39 (c). -/
  cacheOfFrame : s.subc = true → s.fvalid = true ∧ (currentClass s).hasSub = true
  /-- The cached view equals a freshly computed one (R31). -/
  cacheFresh : s.subc = true → s.subview = subView (currentClass s)
  /-- An empty cache holds 0 (R31). -/
  cacheEmpty : s.subc = false → s.subview = 0#32
  /-- R39 (d). -/
  countBound : s.ccount.toNat ≤ max 2 s.cfg.crc9FailInc
  /-- R39 (e). -/
  countUnset : s.verdict = .unset → s.ccount = 0#32
  /-- R39 (f). -/
  abortedIffCause : s.aborted = false ↔ s.faultCause = 0#8
  /-- `FAULT_CAUSE` holds 0, 1 or 2 (R29). -/
  causeCodes : s.faultCause = 0#8 ∨ s.faultCause = 1#8 ∨ s.faultCause = 2#8
  /-- `FAULT_INFO` is 0 unless the context is aborted (R29). -/
  infoClear : s.aborted = false → s.faultInfo = 0#32
  /-- `RESULT` is 0 whenever `STATUS != OK` (R35). -/
  faultResult : s.status ≠ .ok → s.result = 0#32

/-! ## The state machine of a frame context -/

/-- The states of 44_control.md R223. -/
inductive ContextState where
  | empty
  | loading
  | valid
  | rejected
  | framed
  | dead
  deriving DecidableEq, Repr

/-- The state of the frame context, by the conditions of 44_control.md R223. -/
def contextState (s : State) : ContextState :=
  if s.aborted then .dead
  else if s.len = 0#16 then .empty
  else if s.fvalid then .framed
  else match s.verdict with
    | .unset => .loading
    | .passed => .valid
    | .corrected => .valid
    | .failed => .rejected

/-- The cells `SE` and `FA` of the table of 44_control.md R223; none where the cell says "ok". -/
def refusedIn : ContextState → Instr → Option Status
  | _, .bufInit _ => none
  | _, .opcLookup _ => none
  | _, .opcIsvar _ => none
  | _, .opcDesc _ => none
  | _, .rdReg _ => none
  | .dead, _ => some .frameAborted
  | .empty, _ => some .stateError
  | c, .bufPut _ _ _ => if c = .loading then none else some .stateError
  | c, .bitSet _ => if c = .loading then none else some .stateError
  | c, .bitFlip _ => if c = .loading then none else some .stateError
  | c, .crcCorr _ _ _ _ => if c = .loading then none else some .stateError
  | c, .crc9Chk _ _ _ => if c = .loading then none else some .stateError
  | c, .frmLocate => if c = .valid then none else some .stateError
  | c, .frmHassub => if c = .framed then none else some .stateError
  | c, .frmGetsub => if c = .framed then none else some .stateError
  | c, .frmPayload _ => if c = .framed then none else some .stateError
  | _, _ => none

/-- Where a command may move the context: the "to" entries of the table of 44_control.md R223 and the
way to `DEAD`; in every other case the state stays. -/
def mayMove : ContextState → Instr → ContextState → Prop
  | c, .bufInit _, c' => c' = c ∨ c' = .loading
  | .loading, .crcCorr _ _ _ _, c' => c' ∈ [.loading, .valid, .rejected, .dead]
  | .loading, .crc9Chk _ _ _, c' => c' ∈ [.loading, .valid, .rejected, .dead]
  | .valid, .frmLocate, c' => c' ∈ [.valid, .framed]
  | .loading, .bufPut _ _ _, c' => c' ∈ [.loading, .dead]
  | .loading, .bitSet _, c' => c' ∈ [.loading, .dead]
  | .loading, .bitFlip _, c' => c' ∈ [.loading, .dead]
  | .empty, .bitGet _, c' => c' = .empty
  | .empty, .bufGetr _ _ _, c' => c' = .empty
  | .empty, .crc8Calc _ _, c' => c' = .empty
  | c, .bitGet _, c' => c' = c ∨ c' = .dead
  | c, .bufGetr _ _ _, c' => c' = c ∨ c' = .dead
  | c, .crc8Calc _ _, c' => c' = c ∨ c' = .dead
  | c, _, c' => c' = c

/-! ## Spec-side forms -/

/-- The bits of the buffer from index `a` on, in order. -/
def spanBits (m : Memory) (a n : Nat) : List Bool :=
  (List.range n).map (fun k => Memory.read m (a + k))

/-- A dense scan of the `n` bits from `ms`: XOR the entry of every bit that is 1 (20_memory.md R66). -/
def denseXor (m : Memory) (ms n : Nat) (entry : Nat → Nat) (acc : Nat) : Nat :=
  (List.range n).foldl (fun a k => if Memory.read m (ms + k) then a ^^^ entry k else a) acc

/-- XOR of `SYN[p]` over the set bits `p` of a message (41_crc_ecc.md R131). -/
def syndromeSum (syn : List Nat) (bits : List Bool) : Nat :=
  (List.zipWith (fun b e => if b then e else 0) bits syn).foldl (fun a e => a ^^^ e) 0

/-- The residual of a region by a dense scan (41_crc_ecc.md R135, R136). -/
def denseResidual (T : CorrTable) (m : Memory) (ms cs seed : Nat) : Nat :=
  denseXor m ms T.len (fun k => T.syn.getD k 0) seed ^^^ rangeNat m cs T.width

/-- The protected bits of a CRC-9 region in table order: those before the checksum field, then those
after it (41_crc_ecc.md R143). -/
def crc9Message (U : Crc9Table) (m : Memory) (ms cs : Nat) : List Bool :=
  spanBits m ms (cs - ms) ++ spanBits m (cs + 9) (ms + U.len - cs)

/-- The CRC-9 residual from the protected bits in table order (41_crc_ecc.md R143, R144). -/
def denseResidual9 (U : Crc9Table) (m : Memory) (ms cs : Nat) : Nat :=
  syndromeSum U.syn (crc9Message U m ms cs) ^^^ rangeNat m cs 9

/-- The region of `CRC_CORR` fits (41_crc_ecc.md R134). -/
abbrev corrRegionFits (T : CorrTable) (s : State) (ms cs : Half) : Prop :=
  ms.toNat + T.len ≤ s.len.toNat ∧ ms.toNat + T.len ≤ cs.toNat ∧ cs.toNat + T.width ≤ s.len.toNat

/-- The region of `CRC9_CHK` fits (41_crc_ecc.md R142). -/
abbrev crc9RegionFits (U : Crc9Table) (s : State) (ms cs : Half) : Prop :=
  ms.toNat + U.len + 9 ≤ s.len.toNat ∧ ms.toNat ≤ cs.toNat ∧ cs.toNat ≤ ms.toNat + U.len

/-- The length field of 42_opcode_classifier.md R178 as a number below `2^16`. -/
def lenWord : PayLen → Nat
  | .var => 0xFFFF
  | .fixed n => n % 2 ^ 16

/-- A class matches: every present region ends at or below `LEN`, and the sync field is the pattern
(43_frame_sync.md R192). -/
abbrev classMatches (s : State) (e : SyncEntry) : Prop :=
  (∀ r ∈ presentRegions e, r.1 + r.2 ≤ s.len.toNat) ∧ rangeNat s.buf e.syncOff e.sl = e.pat

/-- The state a frame-fatal fault leaves (60_exceptions.md R236). -/
def fatalState (s : State) (st : Status) (x : Half) : State :=
  { s with
    aborted := true
    faultCause := if st = .indexError then 1#8 else 2#8
    faultInfo := x.setWidth 32
    status := st
    result := 0#32 }

/-- Commands in order, stopping at a stop (20_memory.md R61). -/
def execAll : List Instr → State → Host.Outcome State Fault Refusal
  | [], s => .next s
  | i :: is, s =>
    match exec i s with
    | .next t => execAll is t
    | .fault r => .fault r
    | .refused r => .refused r

end Sys2Proof.Machine
end

