-- ==== Sys2Proof/Certificates/Slice0/Obligations.lean ====
section
/-!
DEFINITION. The statements for the provers, from the numbered rules of spec/. Each is listed in
OBLIGATIONS.json with its tier, its basis and the rules it cites.
-/

open Sys2Proof Sys2Proof.Machine

/-! ## The step -/

/-- When the host's next input is a word that decodes to `i`, the step is `exec` of `i`, with the word
taken off the port (60_exceptions.md R230; the port is the model's field, log 3). -/
def Obligations.StepRunsDecodedCommand : Prop :=
  ∀ (s : State) (w : CmdWord) (rest : List HostInput) (i : Instr),
    s.port = .command w :: rest → decode w = .ok i → step s = exec i { s with port := rest }

/-- Reset at the port: the next state is the reset state of its configuration, whatever the block was
doing (70_reset_and_hazards.md R270); the host's further inputs stay (log 4). -/
def Obligations.ResetInputGivesResetState : Prop :=
  ∀ (s : State) (c : Cfg) (rest : List HostInput),
    s.port = .reset c :: rest → step s = .next { State.resetWith c with port := rest }

/-- Without an input the block holds its state (60_exceptions.md R250; log 3). -/
def Obligations.BlockWaitsWithoutInput : Prop :=
  ∀ s : State, s.port = [] → step s = .next s

/-- A word that is no command answers `ILLEGAL_COMMAND` and changes nothing but the response
(30_encoding.md R76, 60_exceptions.md R240 step 1), in every state. -/
def Obligations.IllegalWordAnswersIllegalCommand : Prop :=
  ∀ (s : State) (w : CmdWord) (rest : List HostInput) (r : DecodeReject),
    s.port = .command w :: rest → decode w = .error r →
      step s = .next { s with port := rest, status := .illegalCommand, result := 0#32 }

/-! ## Encoding -/

/-- Decoding the word of a command gives the command, with every operand at every value
(30_encoding.md R71, R73, R74). -/
def Obligations.DecodeOfEncodedCommand : Prop :=
  ∀ i : Instr, decode (encode i) = .ok i

/-- Each word has one meaning: a word that decodes to a command is that command's word
(30_encoding.md R73, R74, R76). -/
def Obligations.EncodeOfDecodedWord : Prop :=
  ∀ (w : CmdWord) (i : Instr), decode w = .ok i → encode i = w

/-- A word is refused exactly when its `OPC` is unassigned or a reserved bit of its format is 1, and
the all-zero word is; refusing it answers `ILLEGAL_COMMAND` and changes nothing but the response
(30_encoding.md R76). -/
def Obligations.IllegalEncodingsAreThose : Prop :=
  (∀ w : CmdWord, (∃ r, decode w = .error r) ↔
    (unassignedOpc (wordOpc w).toNat
      ∨ ∃ f, assignedFormat (wordOpc w).toNat = some f
        ∧ w &&& formatMask f &&& 0x00FFFFFFFFFFFFFF#64 ≠ 0#64))
  ∧ (∃ r, decode 0#64 = .error r)
  ∧ ∀ s : State, refuseWord s = { s with status := .illegalCommand, result := 0#32 }

/-- The worked encodings of 30_encoding.md R79, both ways. -/
def Obligations.WorkedEncodings : Prop :=
  ∀ p ∈ [(Instr.bitFlip 5#16, 0x0500000500000000#64), (.bufInit 96#16, 0x0100006000000000#64),
      (.bufGetr 80#16 95#16 16#8, 0x07100050005F0000#64),
      (.crcCorr 0#8 0#16 80#16 0#16, 0x1000000000500000#64),
      (.crc9Chk 0#8 0#16 7#16, 0x1100000000070000#64),
      (.opcLookup 0xFFFFFFFF#32, 0x20000000FFFFFFFF#64), (.frmPayload 2#8, 0x3302000000000000#64),
      (.rdReg 1#8, 0x4001000000000000#64)],
    decode p.2 = .ok p.1 ∧ encode p.1 = p.2

/-- The eight bytes of a word, most significant first, decode as the word does (20_memory.md R54), and
the decoder takes exactly those 64 bits (30_encoding.md R70). That the bytes after them are left for
the next word is the model's reading (log 11, DEDUCED). -/
def Obligations.TransportedBytesDecodeAsTheWord : Prop :=
  ∀ (w : CmdWord) (rest : List Byte),
    (∀ k < 8, (wordBytes w)[k]? = some (w.extractLsb' (56 - 8 * k) 8))
    ∧ (∀ i, decode w = .ok i → decodeBytes (wordBytes w ++ rest) = .ok (i, rest))
    ∧ (∀ r, decode w = .error r → decodeBytes (wordBytes w ++ rest) = .error r)

/-- The syntax of 30_encoding.md R77 on the lines of R79. -/
def Obligations.AssemblerGivesWorkedEncodings : Prop :=
  ∀ p ∈ [("BIT_FLIP 5", 0x0500000500000000#64), ("BUF_INIT 96", 0x0100006000000000#64),
      ("BUF_GETR 80, 95, 16", 0x07100050005F0000#64),
      ("CRC_CORR 0, 0, 80, 0", 0x1000000000500000#64), ("CRC9_CHK 0, 0, 7", 0x1100000000070000#64),
      ("OPC_LOOKUP -1", 0x20000000FFFFFFFF#64), ("FRM_PAYLOAD 2", 0x3302000000000000#64),
      ("RD_REG CCOUNT", 0x4001000000000000#64)],
    (assembleLine p.1.toList).map encode = some p.2

/-- The commands `LOAD` expands to put the `n`-bit value at `start`, MSB first, and touch no other bit
(30_encoding.md R78). -/
def Obligations.LoadPutsTheValue : Prop :=
  ∀ (s : State) (start : Half) (n value : Nat) (is : List Instr),
    Writable s → start.toNat + n ≤ s.len.toNat → expandPseudo (.load start n value) = some is →
      ∃ m, execAll is s = .next { s with buf := m, status := .ok, result := 0#32 }
        ∧ rangeNat m start.toNat n = value
        ∧ ∀ a, (a < start.toNat ∨ start.toNat + n ≤ a) → Memory.read m a = Memory.read s.buf a

/-! ## Every command -/

/-- Every command completes, in every state (60_exceptions.md R251), and no command writes the
configuration or what reset derived from it (10_state.md R32, R34). That it leaves the host's inputs
still to come is about the model's own field `port` (log 3, DESIGN CHOICE): commands are presented,
not fetched (10_state.md R22). -/
def Obligations.EveryCommandCompletesAndKeepsConfig : Prop :=
  ∀ (i : Instr) (s : State), ∃ t, exec i s = .next t ∧ t.cfg = s.cfg ∧ t.cfgFault = s.cfgFault
    ∧ t.cfgCause = s.cfgCause ∧ t.port = s.port

/-- A command answers `OK` or a status its row of 60_exceptions.md R232 marks, and `RESULT` is 0 when
the status is not `OK` (R231). -/
def Obligations.StatusesOfEachCommand : Prop :=
  ∀ (i : Instr) (s : State), ∃ t, exec i s = .next t
    ∧ (t.status = .ok ∨ t.status ∈ canRaise i) ∧ (t.status ≠ .ok → t.result = 0#32)

/-- A per-call fault writes `STATUS` and `RESULT = 0` and nothing else (60_exceptions.md R233), on a
command and on a word that is none (`refuseWord`, which the step applies to such a word). -/
def Obligations.PerCallFaultsChangeOnlyTheResponse : Prop :=
  (∀ (i : Instr) (s t : State), exec i s = .next t →
    t.status ∈ [Status.stateError, .illegalCommand, .illegalOperand, .frameAborted, .configFault] →
      t = { s with status := t.status, result := 0#32 })
  ∧ ∀ s : State, refuseWord s = { s with status := .illegalCommand, result := 0#32 }

/-- A frame-fatal fault records itself with the offending value and changes nothing else, and `RD_REG`
shows the record (60_exceptions.md R236); it is raised only in a context that is not aborted, so only
the first is recorded (the spec derives this from R240 with R237). -/
def Obligations.FrameFatalFaultsRecordThemselves : Prop :=
  ∀ (i : Instr) (s t : State), exec i s = .next t →
    t.status ∈ [Status.indexError, .rangeError] →
      s.aborted = false ∧ t = fatalState s t.status (faultOperand i)
      ∧ (∃ u, exec (.rdReg 5#8) t = .next u
          ∧ u.result = if t.status = .indexError then 1#32 else 2#32)
      ∧ (∃ u, exec (.rdReg 6#8) t = .next u ∧ u.result = (faultOperand i).setWidth 32)
      ∧ ∃ u, exec (.rdReg 3#8) t = .next u ∧ u.result.getLsbD 1 = true

/-- While `CFGFAULT = 1` every command but `RD_REG` answers `CONFIG_FAULT`; `RD_REG` runs normally, so
that the host can read `FLAGS.CFGFAULT` and `CFG_CAUSE`; no command clears the fault, and reset does
exactly when its configuration passes the check (60_exceptions.md R238). -/
def Obligations.ConfigFaultRefusesAllButReadReg : Prop :=
  ∀ (i : Instr) (s : State), s.cfgFault = true →
    ((∀ sel, i ≠ .rdReg sel) → exec i s = .next { s with status := .configFault, result := 0#32 })
    ∧ (∀ sel, i = .rdReg sel → sel.toNat ≤ 9 →
        ∃ v, exec i s = .next { s with status := .ok, result := v })
    ∧ (∃ f, exec (.rdReg 3#8) s = .next { s with status := .ok, result := f }
        ∧ f.getLsbD 4 = true)
    ∧ exec (.rdReg 9#8) s = .next { s with status := .ok, result := s.cfgCause.setWidth 32 }
    ∧ (∃ t, exec i s = .next t ∧ t.cfgFault = true)
    ∧ ∀ c : Cfg, (applyReset c s).cfgFault = false ↔ checkCfg c = 0

/-- While `ABORTED = 1` a frame-dependent command with legal operands answers `FRAME_ABORTED` and
changes nothing; the other five commands run, and of them `BUF_INIT`, and only it, leaves the aborted
context (60_exceptions.md R237). -/
def Obligations.AbortedContextRefusesFrameCommands : Prop :=
  ∀ (i : Instr) (s : State), s.cfgFault = false → s.aborted = true → operandsLegal s.cfg i →
    (frameDependent i = true →
      exec i s = .next { s with status := .frameAborted, result := 0#32 })
    ∧ (frameDependent i = false → ∃ t, exec i s = .next t ∧ t.status = .ok
        ∧ ((∃ len, i = .bufInit len) ↔ t.aborted = false))

/-- An operand outside its legal set answers `ILLEGAL_OPERAND` before any check of the frame context
(30_encoding.md R75, 60_exceptions.md R240 step 3); a command that is not well-formed has such an
operand under every configuration. -/
def Obligations.IllegalOperandsAreAnswered : Prop :=
  ∀ (i : Instr) (s : State), (s.cfgFault = false ∨ ∃ sel, i = .rdReg sel) →
    (¬ operandsLegal s.cfg i → exec i s = .next { s with status := .illegalOperand, result := 0#32 })
    ∧ (i.wellFormed = false → ¬ operandsLegal s.cfg i)
    ∧ (operandsLegal s.cfg i → ∃ t, exec i s = .next t ∧ t.status ≠ .illegalOperand)

/-- Commands issued in the wrong state answer `STATE_ERROR` and change nothing: no buffer, a write or a
second validation after a validation (40_bit_buffer.md R101, 41_crc_ecc.md R133), framing before a
good verdict or twice (43_frame_sync.md R193), a query without a frame, an absent sub-channel (R197),
an absent second segment (R198). -/
def Obligations.WrongStateIsAnswered : Prop :=
  ∀ s : State, s.cfgFault = false → s.aborted = false →
    (∀ i, operandsLegal s.cfg i → frameDependent i = true → s.len = 0#16 →
      exec i s = .next { s with status := .stateError, result := 0#32 })
    ∧ (∀ i, operandsLegal s.cfg i → s.verdict ≠ .unset →
        ((∃ a n d, i = .bufPut a n d) ∨ (∃ a, i = .bitSet a) ∨ (∃ a, i = .bitFlip a)
          ∨ (∃ t a b c, i = .crcCorr t a b c) ∨ ∃ t a b, i = .crc9Chk t a b) →
        exec i s = .next { s with status := .stateError, result := 0#32 })
    ∧ (s.verdict = .unset ∨ s.verdict = .failed ∨ s.fvalid = true →
        exec .frmLocate s = .next { s with status := .stateError, result := 0#32 })
    ∧ (s.fvalid = false →
        exec .frmHassub s = .next { s with status := .stateError, result := 0#32 }
        ∧ exec .frmGetsub s = .next { s with status := .stateError, result := 0#32 }
        ∧ ∀ seg, seg = 1#8 ∨ seg = 2#8 →
            exec (.frmPayload seg) s = .next { s with status := .stateError, result := 0#32 })
    ∧ (∀ e, s.cfg.syncTable[s.fclass.toNat]? = some e →
        (e.hasSub = false →
          exec .frmGetsub s = .next { s with status := .stateError, result := 0#32 })
        ∧ (e.p2Len = 0 →
          exec (.frmPayload 2#8) s = .next { s with status := .stateError, result := 0#32 }))

/-- Once a validation has run, no command but `BUF_INIT` changes the verdict, the counter or any bit of
the buffer (10_state.md R27, 40_bit_buffer.md R101). -/
def Obligations.VerdictIsTerminal : Prop :=
  ∀ (i : Instr) (s : State), s.verdict ≠ .unset → (∀ len, i ≠ .bufInit len) →
    ∃ t, exec i s = .next t ∧ t.verdict = s.verdict ∧ t.ccount = s.ccount ∧ t.buf = s.buf

/-- Once a frame is constructed, no command but `BUF_INIT` changes it, its length or its buffer, and a
second `FRM_LOCATE` is answered `STATE_ERROR` (43_frame_sync.md R194). -/
def Obligations.FrameIsImmutable : Prop :=
  ∀ (i : Instr) (s : State), Inv s → s.fvalid = true → (∀ len, i ≠ .bufInit len) →
    (∃ t, exec i s = .next t ∧ t.fvalid = true ∧ t.fclass = s.fclass ∧ t.len = s.len
      ∧ t.buf = s.buf)
    ∧ (s.aborted = false →
        exec .frmLocate s = .next { s with status := .stateError, result := 0#32 })

/-- Who writes what: a field that differs after a command was written by one of the commands the rules
of 10_state.md (R23 to R31) name for it. -/
def Obligations.OnlyTheNamedCommandsWrite : Prop :=
  ∀ (i : Instr) (s t : State), exec i s = .next t →
    (t.len ≠ s.len → ∃ n, i = .bufInit n)
    ∧ (t.buf ≠ s.buf → (∃ n, i = .bufInit n) ∨ (∃ a n d, i = .bufPut a n d) ∨ (∃ a, i = .bitSet a)
        ∨ (∃ a, i = .bitFlip a) ∨ ∃ t a b c, i = .crcCorr t a b c)
    ∧ ((t.ccount ≠ s.ccount ∨ t.verdict ≠ s.verdict) →
        (∃ n, i = .bufInit n) ∨ (∃ t a b c, i = .crcCorr t a b c) ∨ ∃ t a b, i = .crc9Chk t a b)
    ∧ ((t.fvalid ≠ s.fvalid ∨ t.fclass ≠ s.fclass) → (∃ n, i = .bufInit n) ∨ i = .frmLocate)
    ∧ (t.subc ≠ s.subc → (∃ n, i = .bufInit n) ∨ i = .frmLocate ∨ i = .frmGetsub)
    ∧ (t.subview ≠ s.subview → (∃ n, i = .bufInit n) ∨ i = .frmGetsub)
    ∧ ((t.aborted ≠ s.aborted ∨ t.faultCause ≠ s.faultCause ∨ t.faultInfo ≠ s.faultInfo) →
        (∃ n, i = .bufInit n) ∨ t.status = .indexError ∨ t.status = .rangeError)

/-- A read-only command that answers `OK` changes nothing but the response, and repeating it gives the
same response (20_memory.md R58). -/
def Obligations.ReadOnlyCommandsRepeat : Prop :=
  ∀ (i : Instr) (s : State), readOnly i = true → ∃ t, exec i s = .next t
    ∧ (t.status = .ok → t = { s with status := .ok, result := t.result } ∧ exec i t = .next t)

/-! ## The invariant, reset and the configuration check -/

/-- Every step keeps the invariant, in every state that meets it, over commands, illegal words, reset
with any configuration, and waiting (10_state.md R39). -/
def Obligations.StepKeepsInvariant : Prop :=
  ∀ s t : State, Inv s → step s = .next t → Inv t

/-- The state after reset meets the invariant, for every configuration (10_state.md R38, R39); its
canonical form of the buffer is the model's (log 1, DESIGN CHOICE). -/
def Obligations.ResetMeetsInvariant : Prop :=
  ∀ c : Cfg, Inv (State.resetWith c)

/-- The reset values of 10_state.md R38. -/
def Obligations.ResetValues : Prop :=
  ∀ c : Cfg, (∀ i, Memory.read (State.resetWith c).buf i = false)
    ∧ (State.resetWith c).len = 0#16 ∧ (State.resetWith c).ccount = 0#32
    ∧ (State.resetWith c).verdict = .unset ∧ (State.resetWith c).aborted = false
    ∧ (State.resetWith c).faultCause = 0#8 ∧ (State.resetWith c).faultInfo = 0#32
    ∧ (State.resetWith c).fvalid = false ∧ (State.resetWith c).fclass = 0#8
    ∧ (State.resetWith c).subc = false ∧ (State.resetWith c).subview = 0#32
    ∧ (State.resetWith c).status = .ok ∧ (State.resetWith c).result = 0#32
    ∧ ((State.resetWith c).cfgFault = true ↔ ¬ cfgLegal c)
    ∧ (State.resetWith c).cfgCause.toNat = checkCfg c

/-- The default configuration (log 6, PRESUMED) passes every test, and the entries of its syndrome tables are pairwise
distinct and none is 0 or all-ones (70_reset_and_hazards.md R274). -/
def Obligations.DefaultConfigPasses : Prop :=
  checkCfg defaultCfg = 0 ∧ State.reset.cfgFault = false
    ∧ ccitt80.syn.Nodup ∧ (∀ e ∈ ccitt80.syn, e ≠ 0 ∧ e ≠ 0xFFFF)
    ∧ crc9Default.syn.Nodup ∧ ∀ e ∈ crc9Default.syn, e ≠ 0 ∧ e ≠ 0x1FF

/-- The check of 70_reset_and_hazards.md R272 passes exactly the legal configurations of
00_scope.md R8. -/
def Obligations.ConfigCheckIsExact : Prop :=
  ∀ c : Cfg, checkCfg c = 0 ↔ cfgLegal c

/-- The code of every test of 70_reset_and_hazards.md R272 (R273), one clause each in the order of the
tests: it is given exactly when every earlier test passes and that test fails. Tests 2 to 4 and 5 to 7
go table by table and test 9 entry by entry: the first table (entry) in order that is not legal
decides, by its own first failing test. No code is above 13. -/
def Obligations.ConfigCauseNamesTheFirstFailure : Prop :=
  ∀ c : Cfg,
    (checkCfg c = 12 ↔ ¬ capLegal c)
    ∧ (checkCfg c = 1 ↔ capLegal c ∧ (¬ tableCountLegal c.corrTables
        ∨ tableCountLegal c.corrTables
          ∧ ∃ T, firstIllegal corrTableLegal c.corrTables T ∧ ¬ corrShapeLegal T))
    ∧ (checkCfg c = 2 ↔ capLegal c ∧ tableCountLegal c.corrTables
        ∧ ∃ T, firstIllegal corrTableLegal c.corrTables T ∧ corrShapeLegal T ∧ ¬ corrEntriesFit T)
    ∧ (checkCfg c = 3 ↔ capLegal c ∧ tableCountLegal c.corrTables
        ∧ ∃ T, firstIllegal corrTableLegal c.corrTables T ∧ corrShapeLegal T ∧ corrEntriesFit T
          ∧ ¬ T.syn.Nodup)
    ∧ (checkCfg c = 4 ↔ capLegal c ∧ corrTablesLegal c ∧ (¬ tableCountLegal c.crc9Tables
        ∨ tableCountLegal c.crc9Tables
          ∧ ∃ U, firstIllegal crc9TableLegal c.crc9Tables U ∧ ¬ crc9ShapeLegal U))
    ∧ (checkCfg c = 5 ↔ capLegal c ∧ corrTablesLegal c ∧ tableCountLegal c.crc9Tables
        ∧ ∃ U, firstIllegal crc9TableLegal c.crc9Tables U ∧ crc9ShapeLegal U ∧ ¬ crc9EntriesFit U)
    ∧ (checkCfg c = 6 ↔ capLegal c ∧ corrTablesLegal c ∧ tableCountLegal c.crc9Tables
        ∧ ∃ U, firstIllegal crc9TableLegal c.crc9Tables U ∧ crc9ShapeLegal U ∧ crc9EntriesFit U
          ∧ ¬ U.syn.Nodup)
    ∧ (checkCfg c = 13 ↔ capLegal c ∧ corrTablesLegal c ∧ crc9TablesLegal c ∧ ¬ failIncLegal c)
    ∧ (checkCfg c = 7 ↔ capLegal c ∧ corrTablesLegal c ∧ crc9TablesLegal c ∧ failIncLegal c
        ∧ ∃ e, firstIllegal opcDefLegal c.opcDef e ∧ 255 < e.code)
    ∧ (checkCfg c = 8 ↔ capLegal c ∧ corrTablesLegal c ∧ crc9TablesLegal c ∧ failIncLegal c
        ∧ opcDefsLegal c ∧ ¬ opcCodesDistinct c)
    ∧ (checkCfg c = 9 ↔ capLegal c ∧ corrTablesLegal c ∧ crc9TablesLegal c ∧ failIncLegal c
        ∧ ((∃ e, firstIllegal opcDefLegal c.opcDef e ∧ e.code ≤ 255 ∧ ¬ payLenLegal e.length)
          ∨ opcDefsLegal c ∧ opcCodesDistinct c ∧ ¬ fallbackLensLegal c))
    ∧ (checkCfg c = 10 ↔ capLegal c ∧ corrTablesLegal c ∧ crc9TablesLegal c ∧ failIncLegal c
        ∧ opcDefsLegal c ∧ opcCodesDistinct c ∧ fallbackLensLegal c ∧ ¬ syncTableLegal c)
    ∧ (checkCfg c = 11 ↔ capLegal c ∧ corrTablesLegal c ∧ crc9TablesLegal c ∧ failIncLegal c
        ∧ opcDefsLegal c ∧ opcCodesDistinct c ∧ fallbackLensLegal c ∧ syncTableLegal c
        ∧ ¬ syncKeysDistinct c)
    ∧ checkCfg c ≤ 13

/-! ## The bit buffer -/

/-- `BUF_INIT` with a legal length starts a new frame context, in an aborted one too, and every bit of
the buffer reads 0 (40_bit_buffer.md R100). -/
def Obligations.BufInitStartsAContext : Prop :=
  ∀ (s : State) (len : Half), s.cfgFault = false → 1 ≤ len.toNat → len.toNat ≤ s.cfg.cap →
    ∃ m, exec (.bufInit len) s = .next
        { s with
          buf := m, len := len, ccount := 0#32, verdict := .unset, aborted := false
          faultCause := 0#8, faultInfo := 0#32, fvalid := false, fclass := 0#8
          subc := false, subview := 0#32, status := .ok, result := len.setWidth 32 }
      ∧ ∀ i, Memory.read m i = false

/-- `BUF_PUT` writes `data` MSB first into its span and no other bit (40_bit_buffer.md R102). That the
buffer stays in canonical form is about the model's representation (log 1, DESIGN CHOICE). -/
def Obligations.BufPutWritesItsSpan : Prop :=
  ∀ (s : State) (start : Half) (count : BitVec 8) (data : Value),
    Writable s → 1 ≤ count.toNat → count.toNat ≤ 32 → data.toNat < 2 ^ count.toNat →
    start.toNat + count.toNat ≤ s.len.toNat →
      ∃ m, exec (.bufPut start count data) s = .next
          { s with buf := m, status := .ok, result := 0#32 }
        ∧ (∀ k < count.toNat,
            Memory.read m (start.toNat + k) = data.getLsbD (count.toNat - 1 - k))
        ∧ (∀ a, (a < start.toNat ∨ start.toNat + count.toNat ≤ a) →
            Memory.read m a = Memory.read s.buf a)
        ∧ (Memory.wf s.buf → Memory.wf m)

/-- `BIT_GET` returns the bit (40_bit_buffer.md R103). -/
def Obligations.BitGetReturnsTheBit : Prop :=
  ∀ (s : State) (i : Half), Ready s → i.toNat < s.len.toNat →
    exec (.bitGet i) s = .next
      { s with status := .ok, result := if Memory.read s.buf i.toNat then 1#32 else 0#32 }

/-- `BIT_SET` makes its bit 1 and `BIT_FLIP` inverts it; every other bit reads as before
(40_bit_buffer.md R104, R105). -/
def Obligations.BitSetAndFlipWriteOneBit : Prop :=
  ∀ (s : State) (i : Half), Writable s → i.toNat < s.len.toNat →
    (∃ m, exec (.bitSet i) s = .next { s with buf := m, status := .ok, result := 0#32 }
      ∧ ∀ a, Memory.read m a = if a = i.toNat then true else Memory.read s.buf a)
    ∧ ∃ m, exec (.bitFlip i) s = .next { s with buf := m, status := .ok, result := 0#32 }
      ∧ ∀ a, Memory.read m a
          = if a = i.toNat then !Memory.read s.buf a else Memory.read s.buf a

/-- Two flips of one index restore the buffer, and a second `BIT_SET` changes nothing
(40_bit_buffer.md R104, R105; 20_memory.md R58). The premise `Memory.wf` is about the model's
representation (log 1, DESIGN CHOICE). -/
def Obligations.FlipsCancelAndSetIsIdempotent : Prop :=
  ∀ (s : State) (i : Half), Writable s → Memory.wf s.buf → i.toNat < s.len.toNat →
    execAll [.bitFlip i, .bitFlip i] s = .next { s with status := .ok, result := 0#32 }
    ∧ execAll [.bitSet i, .bitSet i] s = execAll [.bitSet i] s

/-- `BIT_NSB` returns the least index at or after `from` and below `LEN` whose bit is 1, or the
sentinel when there is none (40_bit_buffer.md R106). -/
def Obligations.NextSetBitIsTheLeast : Prop :=
  ∀ (s : State) (start : Half), Ready s →
    (∀ n, start.toNat ≤ n → n < s.len.toNat → Memory.read s.buf n = true →
      (∀ k, start.toNat ≤ k → k < n → Memory.read s.buf k = false) →
        exec (.bitNsb start) s = .next { s with status := .ok, result := BitVec.ofNat 32 n })
    ∧ ((∀ k, start.toNat ≤ k → k < s.len.toNat → Memory.read s.buf k = false) →
        exec (.bitNsb start) s = .next { s with status := .ok, result := 0xFFFFFFFF#32 })

/-- `BUF_GETR` returns the sum of 00_scope.md R12: bit `start` is the most significant
(40_bit_buffer.md R107). -/
def Obligations.BufGetrReturnsTheRange : Prop :=
  ∀ (s : State) (start stop : Half) (w : BitVec 8),
    Ready s → 1 ≤ w.toNat → w.toNat ≤ 32 → start.toNat ≤ stop.toNat → stop.toNat < s.len.toNat →
    stop.toNat - start.toNat + 1 ≤ w.toNat →
      ∃ v, exec (.bufGetr start stop w) s = .next { s with status := .ok, result := v }
        ∧ v.toNat = ((List.range (stop.toNat - start.toNat + 1)).map (fun k =>
            (Memory.read s.buf (start.toNat + k)).toNat
              * 2 ^ (stop.toNat - start.toNat - k))).sum

/-- A 1-bit read and a range read over it agree: `BIT_GET i` returns integer bit `b - i` of the range
`a..b` (20_memory.md R53). -/
def Obligations.MixedWidthReadsAgree : Prop :=
  ∀ (s : State) (a b i : Half) (w : BitVec 8),
    Ready s → 1 ≤ w.toNat → w.toNat ≤ 32 → a.toNat ≤ i.toNat → i.toNat ≤ b.toNat →
    b.toNat < s.len.toNat → b.toNat - a.toNat + 1 ≤ w.toNat →
      ∃ v x, exec (.bufGetr a b w) s = .next { s with status := .ok, result := v }
        ∧ exec (.bitGet i) s = .next { s with status := .ok, result := x }
        ∧ x = if v.getLsbD (b.toNat - i.toNat) then 1#32 else 0#32

/-- An index at or past `LEN` raises `INDEX_ERROR` and aborts the context with that index
(20_memory.md R51; 40_bit_buffer.md R103 to R105). -/
def Obligations.IndexErrorsAbort : Prop :=
  ∀ (s : State) (i : Half), Ready s → s.len.toNat ≤ i.toNat →
    exec (.bitGet i) s = .next (fatalState s .indexError i)
    ∧ (s.verdict = .unset → exec (.bitSet i) s = .next (fatalState s .indexError i)
        ∧ exec (.bitFlip i) s = .next (fatalState s .indexError i))

/-- A range that passes `LEN`, is reversed or is wider than `W`, or a region that does not fit, raises
`RANGE_ERROR` and aborts the context with its start (40_bit_buffer.md R102, R107; 41_crc_ecc.md R134,
R142, R150). -/
def Obligations.RangeErrorsAbort : Prop :=
  ∀ s : State, Ready s →
    (∀ start count data, s.verdict = .unset → operandsLegal s.cfg (.bufPut start count data) →
      s.len.toNat < start.toNat + count.toNat →
        exec (.bufPut start count data) s = .next (fatalState s .rangeError start))
    ∧ (∀ start stop w, operandsLegal s.cfg (.bufGetr start stop w) →
        (stop.toNat < start.toNat ∨ s.len.toNat ≤ stop.toNat
          ∨ start.toNat + w.toNat ≤ stop.toNat) →
        exec (.bufGetr start stop w) s = .next (fatalState s .rangeError start))
    ∧ (∀ start count, operandsLegal s.cfg (.crc8Calc start count) →
        s.len.toNat < start.toNat + count.toNat →
        exec (.crc8Calc start count) s = .next (fatalState s .rangeError start))
    ∧ (∀ t ms cs seed T, s.verdict = .unset → s.cfg.corrTables[t.toNat]? = some T →
        seed.toNat < 2 ^ T.width → ¬ corrRegionFits T s ms cs →
        exec (.crcCorr t ms cs seed) s = .next (fatalState s .rangeError ms))
    ∧ (∀ t ms cs U, s.verdict = .unset → s.cfg.crc9Tables[t.toNat]? = some U →
        ¬ crc9RegionFits U s ms cs →
        exec (.crc9Chk t ms cs) s = .next (fatalState s .rangeError ms))

/-! ## Validation -/

/-- Sparse iteration by the next set bit gives the accumulator of a dense scan, for any entries
(20_memory.md R66; 41_crc_ecc.md R135). -/
def Obligations.SparseIterationEqualsDenseScan : Prop :=
  ∀ (m : Memory) (len ms n : Nat) (entry : Nat → Nat) (acc : Nat), ms + n ≤ len →
    accumulate m len ms n entry acc = denseXor m ms n (fun k => entry (ms + k)) acc

/-- For a table built from a generator, XOR of the entries of the set bits of a message is the shift
register's value of that message (41_crc_ecc.md R131). -/
def Obligations.SyndromeSumIsTheShiftRegister : Prop :=
  ∀ (C g : Nat) (bits : List Bool), 1 ≤ C →
    syndromeSum (generatedTable C g bits.length) bits = crcReg C g bits

/-- The default tables (log 6, PRESUMED) are those the construction of 41_crc_ecc.md R131 gives. -/
def Obligations.DefaultTablesAreGenerated : Prop :=
  ccitt80.syn = generatedTable 16 0x1021 80 ∧ crc9Default.syn = generatedTable 9 0x059 135

/-- `CRC_CORR` decides on the residual: PASSED on 0 or all-ones; otherwise CORRECTED with that one bit
inverted where the residual is the entry of position `p`; otherwise FAILED. Counter, verdict and
result are as the rules give them (41_crc_ecc.md R135 to R138). -/
def Obligations.CrcCorrDecidesOnTheResidual : Prop :=
  ∀ (s : State) (t : BitVec 8) (ms cs seed : Half) (T : CorrTable),
    Writable s → s.cfg.corrTables[t.toNat]? = some T → corrTableLegal T →
    seed.toNat < 2 ^ T.width → corrRegionFits T s ms cs →
      let res := denseResidual T s.buf ms.toNat cs.toNat seed.toNat
      ((res = 0 ∨ res = 2 ^ T.width - 1) →
        exec (.crcCorr t ms cs seed) s = .next
          { s with verdict := .passed, status := .ok, result := 1#32 })
      ∧ (∀ p, res ≠ 0 → res ≠ 2 ^ T.width - 1 → T.syn[p]? = some res →
          ∃ m, exec (.crcCorr t ms cs seed) s = .next
              { s with
                buf := m
                ccount := BitVec.ofNat 32 (min (s.ccount.toNat + 1) (2 ^ 32 - 1))
                verdict := .corrected
                status := .ok
                result := BitVec.ofNat 32 ((ms.toNat + p) * 2 ^ 16 + 2) }
            ∧ ∀ a, Memory.read m a
                = if a = ms.toNat + p then !Memory.read s.buf a else Memory.read s.buf a)
      ∧ (res ≠ 0 → res ≠ 2 ^ T.width - 1 → res ∉ T.syn →
          exec (.crcCorr t ms cs seed) s = .next
            { s with
              ccount := BitVec.ofNat 32 (min (s.ccount.toNat + 2) (2 ^ 32 - 1))
              verdict := .failed
              status := .ok
              result := 3#32 })

/-- One error in the protected region of a codeword with clean residual 0 is corrected: after the flip
and `CRC_CORR` the buffer is the codeword again, the verdict CORRECTED and the counter one higher
(41_crc_ecc.md R140). For any legal table without an entry 0 or all-ones, and any seed. The premise
`Memory.wf` is about the model's representation (log 1, DESIGN CHOICE). -/
def Obligations.SingleErrorIsCorrected : Prop :=
  ∀ (s : State) (t : BitVec 8) (ms cs seed : Half) (T : CorrTable) (p : Nat),
    Writable s → Memory.wf s.buf → s.cfg.corrTables[t.toNat]? = some T → corrTableLegal T →
    (∀ e ∈ T.syn, e ≠ 0 ∧ e ≠ 2 ^ T.width - 1) → seed.toNat < 2 ^ T.width →
    corrRegionFits T s ms cs → denseResidual T s.buf ms.toNat cs.toNat seed.toNat = 0 →
    p < T.len →
      execAll [.bitFlip (BitVec.ofNat 16 (ms.toNat + p)), .crcCorr t ms cs seed] s = .next
        { s with
          ccount := BitVec.ofNat 32 (min (s.ccount.toNat + 1) (2 ^ 32 - 1))
          verdict := .corrected
          status := .ok
          result := BitVec.ofNat 32 ((ms.toNat + p) * 2 ^ 16 + 2) }

/-- Two errors in the protected region of a codeword with clean residual 0, over the default table
(log 6, PRESUMED), give FAILED, two more on the counter, and no correction (41_crc_ecc.md R139 (c), R140). -/
def Obligations.DoubleErrorFailsOverTheDefaultTable : Prop :=
  ∀ (s : State) (t : BitVec 8) (ms cs seed : Half) (p q : Nat),
    Writable s → s.cfg.corrTables[t.toNat]? = some ccitt80 → corrRegionFits ccitt80 s ms cs →
    denseResidual ccitt80 s.buf ms.toNat cs.toNat seed.toNat = 0 → p < q → q < 80 →
      ∃ m, execAll [.bitFlip (BitVec.ofNat 16 (ms.toNat + p)),
            .bitFlip (BitVec.ofNat 16 (ms.toNat + q))] s
          = .next { s with buf := m, status := .ok, result := 0#32 }
        ∧ exec (.crcCorr t ms cs seed) { s with buf := m, status := .ok, result := 0#32 } = .next
          { s with
            buf := m
            ccount := BitVec.ofNat 32 (min (s.ccount.toNat + 2) (2 ^ 32 - 1))
            verdict := .failed
            status := .ok
            result := 3#32 }

/-- `CRC9_CHK` decides on its residual, over the protected bits in table order with the checksum field
left out: PASSED on 0 or all-ones, otherwise FAILED with `CRC9_FAIL_INC` on the counter. It writes no
bit (41_crc_ecc.md R143 to R145). -/
def Obligations.Crc9DecidesOnTheResidual : Prop :=
  ∀ (s : State) (t : BitVec 8) (ms cs : Half) (U : Crc9Table),
    Writable s → s.cfg.crc9Tables[t.toNat]? = some U → crc9TableLegal U → crc9RegionFits U s ms cs →
      let res := denseResidual9 U s.buf ms.toNat cs.toNat
      ((res = 0 ∨ res = 0x1FF) →
        exec (.crc9Chk t ms cs) s = .next
          { s with verdict := .passed, status := .ok, result := 1#32 })
      ∧ (res ≠ 0 → res ≠ 0x1FF →
          exec (.crc9Chk t ms cs) s = .next
            { s with
              ccount := BitVec.ofNat 32 (min (s.ccount.toNat + s.cfg.crc9FailInc) (2 ^ 32 - 1))
              verdict := .failed
              status := .ok
              result := 3#32 })

/-- Over the default CRC-9 table (log 6, PRESUMED), one error anywhere in the region of a clean block, a checksum bit
included, with either polarity, gives FAILED and corrects nothing (41_crc_ecc.md R146 (a)). -/
def Obligations.Crc9SingleErrorFails : Prop :=
  ∀ (s : State) (t : BitVec 8) (ms cs i : Half),
    Writable s → s.cfg.crc9Tables[t.toNat]? = some crc9Default →
    crc9RegionFits crc9Default s ms cs →
    (denseResidual9 crc9Default s.buf ms.toNat cs.toNat = 0
      ∨ denseResidual9 crc9Default s.buf ms.toNat cs.toNat = 0x1FF) →
    ms.toNat ≤ i.toNat → i.toNat < ms.toNat + 144 →
      ∃ m, exec (.bitFlip i) s = .next { s with buf := m, status := .ok, result := 0#32 }
        ∧ exec (.crc9Chk t ms cs) { s with buf := m, status := .ok, result := 0#32 } = .next
          { s with
            buf := m
            ccount := BitVec.ofNat 32 (min (s.ccount.toNat + s.cfg.crc9FailInc) (2 ^ 32 - 1))
            verdict := .failed
            status := .ok
            result := 3#32 }

/-- `CRC8_CALC` returns the remainder the shift register of 41_crc_ecc.md R131 gives with width 8 and
`POLY8`, over its span, and writes nothing but the response (R150). -/
def Obligations.Crc8IsTheShiftRegister : Prop :=
  ∀ (s : State) (start count : Half), Ready s → 1 ≤ count.toNat →
    start.toNat + count.toNat ≤ s.len.toNat →
      ∃ v, exec (.crc8Calc start count) s = .next { s with status := .ok, result := v }
        ∧ v.toNat = crcReg 8 s.cfg.poly8.toNat (spanBits s.buf start.toNat count.toNat)

/-- The remainder of a span with its own remainder appended is 0 (41_crc_ecc.md R150), for any
`POLY8`. -/
def Obligations.Crc8OfSpanAndRemainderIsZero : Prop :=
  ∀ (s : State) (start count : Half), Ready s → 1 ≤ count.toNat →
    start.toNat + count.toNat + 8 ≤ s.len.toNat →
      ∃ v, exec (.crc8Calc start count) s = .next { s with status := .ok, result := v }
        ∧ (rangeNat s.buf (start.toNat + count.toNat) 8 = v.toNat →
            exec (.crc8Calc start (count + 8#16)) s = .next
              { s with status := .ok, result := 0#32 })

/-! ## The opcode classifier -/

/-- `OPC_LOOKUP`: exact match first, then the fallback of the value's band, and the universal unknown
outside `[0,255]`, in every frame context (42_opcode_classifier.md R172, R174). -/
def Obligations.OpcLookupClassifies : Prop :=
  ∀ (s : State) (value : Value), s.cfgFault = false → opcCodesDistinct s.cfg →
    (∀ e ∈ s.cfg.opcDef, (e.code : Int) = value.toInt → e.code ≤ 255 →
      exec (.opcLookup value) s = .next
        { s with status := .ok, result := BitVec.ofNat 32 (e.code * 2 ^ 16 + lenWord e.length) })
    ∧ ((∀ e ∈ s.cfg.opcDef, (e.code : Int) ≠ value.toInt) →
        ∀ (band : Nat) (len : PayLen), (band, len) ∈ [(0, s.cfg.fbLen0), (1, s.cfg.fbLen1),
            (2, s.cfg.fbLen2), (3, s.cfg.fbLen3)] →
          64 * (band : Int) ≤ value.toInt → value.toInt ≤ 64 * (band : Int) + 63 →
          exec (.opcLookup value) s = .next
            { s with
              status := .ok
              result := BitVec.ofNat 32 ((256 + band) * 2 ^ 16 + lenWord len) })
    ∧ ((value.toInt < 0 ∨ 255 < value.toInt) →
        exec (.opcLookup value) s = .next
          { s with
            status := .ok
            result := BitVec.ofNat 32 (260 * 2 ^ 16 + lenWord s.cfg.univLen) })

/-- `OPC_ISVAR` and `OPC_DESC` on every id: the attributes of the descriptor of
42_opcode_classifier.md R171 (R176, R177), and `ILLEGAL_OPERAND` for an id that names none. -/
def Obligations.DescriptorAttributes : Prop :=
  ∀ (s : State) (id : Half), s.cfgFault = false → opcCodesDistinct s.cfg →
    (∀ code (len : PayLen),
      ((∃ e ∈ s.cfg.opcDef, e.code = id.toNat ∧ id.toNat ≤ 255 ∧ code = id.toNat ∧ len = e.length)
        ∨ (code = 0xFFFF ∧ (id.toNat, len) ∈ [(256, s.cfg.fbLen0), (257, s.cfg.fbLen1),
            (258, s.cfg.fbLen2), (259, s.cfg.fbLen3), (260, s.cfg.univLen)])) →
      exec (.opcDesc id) s = .next
          { s with status := .ok, result := BitVec.ofNat 32 (code * 2 ^ 16 + lenWord len) }
      ∧ exec (.opcIsvar id) s = .next
          { s with status := .ok, result := if len = .var then 1#32 else 0#32 })
    ∧ (¬ namesDescriptor s.cfg id →
        exec (.opcDesc id) s = .next { s with status := .illegalOperand, result := 0#32 }
        ∧ exec (.opcIsvar id) s = .next { s with status := .illegalOperand, result := 0#32 })

/-- The lookup is total, and a defined code comes back as its own descriptor
(42_opcode_classifier.md R175). -/
def Obligations.OpcLookupIsTotalAndRoundTrips : Prop :=
  ∀ s : State, s.cfgFault = false →
    (∀ value : Value, ∃ v, exec (.opcLookup value) s = .next { s with status := .ok, result := v }
      ∧ (value.toInt < 0 ∨ 255 < value.toInt → v.extractLsb' 16 16 = 260#16)
      ∧ (0 ≤ value.toInt → value.toInt ≤ 255 →
          v.extractLsb' 16 16 ≠ 260#16 ∧ namesDescriptor s.cfg (v.extractLsb' 16 16)))
    ∧ ∀ c : Nat, c ≤ 255 → c ∈ s.cfg.opcDef.map (fun e => e.code) →
        ∃ v, exec (.opcLookup (BitVec.ofNat 32 c)) s = .next { s with status := .ok, result := v }
          ∧ v.extractLsb' 16 16 = BitVec.ofNat 16 c
          ∧ exec (.opcDesc (BitVec.ofNat 16 c)) s = .next { s with status := .ok, result := v }

/-! ## The frame -/

/-- `FRM_LOCATE` constructs the frame of the first matching class in table order; without a match it
changes nothing but the response; before a good verdict, without a buffer, or with a frame it answers
`STATE_ERROR` (43_frame_sync.md R192, R193). -/
def Obligations.LocateTakesTheFirstMatch : Prop :=
  ∀ s : State, s.cfgFault = false → s.aborted = false →
    (s.len ≠ 0#16 → s.verdict = .passed ∨ s.verdict = .corrected → s.fvalid = false →
      (∀ j e, s.cfg.syncTable[j]? = some e → classMatches s e →
        (∀ k < j, ∀ e', s.cfg.syncTable[k]? = some e' → ¬ classMatches s e') →
          exec .frmLocate s = .next
            { s with
              fvalid := true, fclass := BitVec.ofNat 8 j, subc := false
              status := .ok, result := BitVec.ofNat 32 j })
      ∧ ((∀ e ∈ s.cfg.syncTable, ¬ classMatches s e) →
          exec .frmLocate s = .next { s with status := .ok, result := 0xFFFFFFFF#32 }))
    ∧ (s.len = 0#16 ∨ (s.verdict ≠ .passed ∧ s.verdict ≠ .corrected) ∨ s.fvalid = true →
        exec .frmLocate s = .next { s with status := .stateError, result := 0#32 })

/-- The frame queries return the constants of the frame's class; the first `FRM_GETSUB` fills the cache
and later ones return it (43_frame_sync.md R196 to R198). -/
def Obligations.FrameQueriesReturnTheClass : Prop :=
  ∀ (s : State) (e : SyncEntry), Framed s → s.cfg.syncTable[s.fclass.toNat]? = some e →
    exec .frmHassub s = .next
      { s with status := .ok, result := if e.hasSub then 1#32 else 0#32 }
    ∧ (e.hasSub = true → s.subc = false →
        exec .frmGetsub s = .next
          { s with
            subc := true
            subview := BitVec.ofNat 16 e.subOff ++ BitVec.ofNat 16 e.subLen
            status := .ok
            result := BitVec.ofNat 16 e.subOff ++ BitVec.ofNat 16 e.subLen })
    ∧ (e.hasSub = true → s.subc = true →
        exec .frmGetsub s = .next { s with status := .ok, result := s.subview })
    ∧ exec (.frmPayload 1#8) s = .next
        { s with status := .ok, result := BitVec.ofNat 16 e.p1Off ++ BitVec.ofNat 16 e.p1Len }
    ∧ (e.p2Len ≠ 0 → exec (.frmPayload 2#8) s = .next
        { s with status := .ok, result := BitVec.ofNat 16 e.p2Off ++ BitVec.ofNat 16 e.p2Len })

/-- In a state that meets the invariant, `FRM_GETSUB` twice gives one value, the view of the class
(43_frame_sync.md R197; 10_state.md R31). -/
def Obligations.GetsubAlwaysReturnsTheView : Prop :=
  ∀ (s : State) (e : SyncEntry), Inv s → Framed s →
    s.cfg.syncTable[s.fclass.toNat]? = some e → e.hasSub = true →
      ∃ t, exec .frmGetsub s = .next t
        ∧ t.result = BitVec.ofNat 16 e.subOff ++ BitVec.ofNat 16 e.subLen
        ∧ exec .frmGetsub t = .next t

/-! ## Registers -/

/-- `RD_REG` returns each register of 10_state.md R36 in every state, with the bits of `FLAGS` of R37,
and writes nothing but the response (44_control.md R220). `CAP` reads as its low 16 bits: for a `CAP`
of `2^16` or more, which only a refused configuration has, that is the model's reading (log 9,
DEDUCED). -/
def Obligations.ReadRegReturnsEachRegister : Prop :=
  ∀ s : State,
    exec (.rdReg 0#8) s = .next { s with status := .ok, result := s.len.setWidth 32 }
    ∧ exec (.rdReg 1#8) s = .next { s with status := .ok, result := s.ccount }
    ∧ exec (.rdReg 2#8) s = .next
        { s with
          status := .ok
          result := match s.verdict with
            | .unset => 0#32
            | .passed => 1#32
            | .corrected => 2#32
            | .failed => 3#32 }
    ∧ (∃ f, exec (.rdReg 3#8) s = .next { s with status := .ok, result := f }
        ∧ f.getLsbD 0 = (s.len != 0#16) ∧ f.getLsbD 1 = s.aborted ∧ f.getLsbD 2 = s.fvalid
        ∧ f.getLsbD 3 = s.subc ∧ f.getLsbD 4 = s.cfgFault ∧ ∀ b, 5 ≤ b → f.getLsbD b = false)
    ∧ exec (.rdReg 4#8) s = .next
        { s with status := .ok, result := if s.fvalid then s.fclass.setWidth 32 else 0xFFFFFFFF#32 }
    ∧ exec (.rdReg 5#8) s = .next { s with status := .ok, result := s.faultCause.setWidth 32 }
    ∧ exec (.rdReg 6#8) s = .next { s with status := .ok, result := s.faultInfo }
    ∧ exec (.rdReg 7#8) s = .next
        { s with status := .ok, result := BitVec.ofNat 32 (s.cfg.cap % 2 ^ 16) }
    ∧ exec (.rdReg 8#8) s = .next
        { s with status := .ok, result := if s.subc then s.subview else 0#32 }
    ∧ exec (.rdReg 9#8) s = .next { s with status := .ok, result := s.cfgCause.setWidth 32 }
    ∧ ∀ sel : BitVec 8, 10 ≤ sel.toNat →
        exec (.rdReg sel) s = .next { s with status := .illegalOperand, result := 0#32 }

/-! ## The life of a frame context -/

/-- The cells `SE` and `FA` of the table of 44_control.md R223: a command with legal operands in a
state whose cell refuses it answers that status and changes nothing. -/
def Obligations.ContextStateRefusals : Prop :=
  ∀ (i : Instr) (s : State) (st : Status), Inv s → s.cfgFault = false → operandsLegal s.cfg i →
    refusedIn (contextState s) i = some st →
      exec i s = .next { s with status := st, result := 0#32 }

/-- A command moves the frame context only as the table of 44_control.md R223 and the way to `DEAD`
say. -/
def Obligations.ContextStateMoves : Prop :=
  ∀ (i : Instr) (s : State), Inv s →
    ∃ t, exec i s = .next t ∧ mayMove (contextState s) i (contextState t)

/-- Bits at or past `LEN` cannot be observed: two states that agree on everything below `LEN` answer
every command alike and stay so (10_state.md R23, 20_memory.md R51). -/
def Obligations.BitsPastLenAreUnobservable : Prop :=
  ∀ (i : Instr) (s : State) (m : Memory),
    (∀ a < s.len.toNat, Memory.read m a = Memory.read s.buf a) →
      ∃ t m', exec i s = .next t ∧ exec i { s with buf := m } = .next { t with buf := m' }
        ∧ ∀ a < t.len.toNat, Memory.read m' a = Memory.read t.buf a
end

