-- ==== Sys2Proof/Laws/Buffer.lean ====
section
/-!
SUPPORT. What the operations on the bit buffer do: read after write, the canonical form kept by every
operation, bulk writes bit by bit, ranges as integers, and the next set bit.
-/
namespace Sys2Proof.Machine

/-! ### One bit -/

theorem read_nil (i : Nat) : Memory.read [] i = false := rfl

theorem read_cons (c : BitCell) (m : Memory) (i : Nat) :
    Memory.read (c :: m) i = if c.1 = i then c.2 else Memory.read m i := by
  by_cases h : c.1 = i <;> simp [Memory.read, h]

theorem erase_cons (c : BitCell) (m : Memory) (i : Nat) :
    Memory.erase (c :: m) i = if c.1 = i then Memory.erase m i else c :: Memory.erase m i := by
  by_cases h : c.1 = i <;> simp [Memory.erase, h]

theorem read_erase (m : Memory) (i j : Nat) :
    Memory.read (Memory.erase m i) j = if j = i then false else Memory.read m j := by
  induction m with
  | nil => simp [Memory.erase, read_nil]
  | cons c m ih =>
    rw [erase_cons]
    split <;> rename_i h
    · rw [ih, read_cons]
      by_cases hj : j = i
      · simp [hj]
      · have : ¬ c.1 = j := fun e => hj (by omega)
        simp [hj, this]
    · rw [read_cons, ih, read_cons]
      by_cases hj : j = i
      · subst hj; simp [h]
      · simp [hj]

theorem not_mem_erase (m : Memory) (i : Nat) : ∀ c ∈ Memory.erase m i, c.1 ≠ i := by
  intro c hc
  simpa using (List.mem_filter.mp hc).2

theorem read_insert (m : Memory) (i : Nat) (b : Bool) (j : Nat) (h : ∀ c ∈ m, c.1 ≠ i) :
    Memory.read (Memory.insert m i b) j = if j = i then b else Memory.read m j := by
  induction m with
  | nil =>
    rw [Memory.insert, read_cons]
    by_cases hj : j = i
    · simp [hj]
    · rw [if_neg (fun e : i = j => hj e.symm), if_neg hj]
  | cons c m ih =>
    have hc : c.1 ≠ i := h c (by simp)
    have hm := ih (fun d hd => h d (by simp [hd]))
    rw [Memory.insert]
    split
    · rw [read_cons]
      by_cases hj : j = i
      · simp [hj]
      · have : ¬ i = j := fun e => hj e.symm
        simp [hj, this]
    · rw [read_cons, hm, read_cons]
      by_cases hj : j = i
      · subst hj; simp [hc]
      · simp [hj]

/-- A read after a write: the written bit at its index, every other bit as before. -/
theorem read_write (m : Memory) (i : Nat) (b : Bool) (j : Nat) :
    Memory.read (Memory.write m i b) j = if j = i then b else Memory.read m j := by
  unfold Memory.write
  split <;> rename_i hb
  · have : b = false := by simpa [Memory.unlisted] using hb
    rw [read_erase, this]
  · rw [read_insert _ _ _ _ (not_mem_erase m i), read_erase]
    by_cases hj : j = i <;> simp [hj]

/-- A read after a flip. -/
theorem read_flipBit (m : Memory) (i j : Nat) :
    Memory.read (flipBit m i) j = if j = i then !Memory.read m i else Memory.read m j :=
  read_write m i _ j

/-! ### The canonical form -/

theorem mem_insert {m : Memory} {i : Nat} {b : Bool} {c : BitCell}
    (h : c ∈ Memory.insert m i b) : c = (i, b) ∨ c ∈ m := by
  induction m with
  | nil => simpa [Memory.insert] using h
  | cons d m ih =>
    rw [Memory.insert] at h
    split at h
    · simpa using h
    · rcases List.mem_cons.mp h with h | h
      · exact .inr (by simp [h])
      · rcases ih h with h | h
        · exact .inl h
        · exact .inr (by simp [h])

theorem insert_rising {m : Memory} {i : Nat} {b : Bool}
    (hm : m.Pairwise (fun c d => c.1 < d.1)) (hi : ∀ c ∈ m, c.1 ≠ i) :
    (Memory.insert m i b).Pairwise (fun c d => c.1 < d.1) := by
  induction m with
  | nil => simp [Memory.insert]
  | cons c m ih =>
    have hc := List.pairwise_cons.mp hm
    rw [Memory.insert]
    split <;> rename_i hlt
    · refine List.pairwise_cons.mpr ⟨fun d hd => ?_, hm⟩
      rcases List.mem_cons.mp hd with rfl | hd
      · exact hlt
      · exact lt_trans hlt (hc.1 d hd)
    · refine List.pairwise_cons.mpr ⟨fun d hd => ?_, ih hc.2 (fun d hd => hi d (by simp [hd]))⟩
      have hci : c.1 ≠ i := hi c (by simp)
      rcases mem_insert hd with rfl | hd
      · show c.1 < i; omega
      · exact hc.1 d hd

theorem wf_nil : Memory.wf [] := by simp [Memory.wf]

theorem erase_wf {m : Memory} (i : Nat) (h : Memory.wf m) : Memory.wf (Memory.erase m i) :=
  ⟨h.1.filter _, fun c hc => h.2 c (List.mem_filter.mp hc).1⟩

/-- A write keeps the canonical form. -/
theorem write_wf {m : Memory} (i : Nat) (b : Bool) (h : Memory.wf m) :
    Memory.wf (Memory.write m i b) := by
  unfold Memory.write
  split <;> rename_i hb
  · exact erase_wf i h
  · refine ⟨insert_rising (erase_wf i h).1 (not_mem_erase m i), fun c hc => ?_⟩
    rcases mem_insert hc with rfl | hc
    · cases b <;> simp_all [Memory.unlisted]
    · exact (erase_wf i h).2 c hc

/-- A flip keeps the canonical form. -/
theorem flipBit_wf {m : Memory} (i : Nat) (h : Memory.wf m) : Memory.wf (flipBit m i) :=
  write_wf i _ h

/-- A bulk write keeps the canonical form. -/
theorem putBits_wf (data : Value) (n a : Nat) {m : Memory} (h : Memory.wf m) :
    Memory.wf (putBits data n a m) := by
  induction n generalizing a m with
  | zero => exact h
  | succ n ih => exact ih (a + 1) (write_wf a _ h)

/-- A write lists no index but its own and those listed before. -/
theorem mem_write {m : Memory} {i : Nat} {b : Bool} {c : BitCell} (h : c ∈ Memory.write m i b) :
    c.1 = i ∨ c ∈ m := by
  unfold Memory.write at h
  split at h
  · exact .inr (List.mem_filter.mp h).1
  · rcases mem_insert h with rfl | h
    · exact .inl rfl
    · exact .inr (List.mem_filter.mp h).1

/-- A bulk write lists no index but those of its span and those listed before. -/
theorem mem_putBits {data : Value} {n a : Nat} {m : Memory} {c : BitCell}
    (h : c ∈ putBits data n a m) : (a ≤ c.1 ∧ c.1 < a + n) ∨ c ∈ m := by
  induction n generalizing a m with
  | zero => exact .inr h
  | succ n ih =>
    rcases ih h with h | h
    · exact .inl (by omega)
    · rcases mem_write h with h | h
      · exact .inl (by omega)
      · exact .inr h

/-- In canonical form a bit that reads 1 is a listed cell. -/
theorem mem_of_read {m : Memory} {i : Nat} (h : Memory.read m i = true) : (i, true) ∈ m := by
  induction m with
  | nil => simp [read_nil] at h
  | cons c m ih =>
    rw [read_cons] at h
    split at h <;> rename_i hc
    · exact List.mem_cons.mpr (.inl (by rw [← hc, ← h]))
    · exact List.mem_cons.mpr (.inr (ih h))

theorem read_of_mem {m : Memory} (hm : Memory.wf m) {c : BitCell} (h : c ∈ m) :
    Memory.read m c.1 = true := by
  induction m with
  | nil => simp at h
  | cons d m ih =>
    rw [read_cons]
    have hp := List.pairwise_cons.mp hm.1
    rcases List.mem_cons.mp h with rfl | h
    · simpa [Memory.unlisted] using hm.2 c (by simp)
    · have : d.1 ≠ c.1 := by have := hp.1 c h; omega
      rw [if_neg this]
      exact ih ⟨hp.2, fun e he => hm.2 e (by simp [he])⟩ h

/-- Equal reads make equal buffers, in canonical form. -/
theorem memory_ext {m n : Memory} (hm : Memory.wf m) (hn : Memory.wf n)
    (h : ∀ i, Memory.read m i = Memory.read n i) : m = n := by
  have sub : ∀ {p q : Memory}, Memory.wf p → Memory.wf q →
      (∀ i, Memory.read p i = Memory.read q i) → ∀ c ∈ p, c ∈ q := by
    intro p q hp _ hpq c hc
    have h1 := read_of_mem hp hc
    have h2 := mem_of_read (hpq c.1 ▸ h1)
    have h3 : c.2 = true := by simpa [Memory.unlisted] using hp.2 c hc
    have : c = (c.1, true) := by rw [← h3]
    rw [this]; exact h2
  have hs : List.Perm m n := by
    refine (List.perm_ext_iff_of_nodup ?_ ?_).mpr
      (fun c => ⟨sub hm hn h c, sub hn hm (fun i => (h i).symm) c⟩)
    · exact hm.1.imp (fun hlt e => by subst e; omega)
    · exact hn.1.imp (fun hlt e => by subst e; omega)
  exact hs.eq_of_pairwise (fun a b _ _ h1 h2 => by omega) hm.1 hn.1

/-! ### Many bits -/

/-- A bulk write bit by bit: inside the span the data, its most significant bit first; outside it
every bit as before. -/
theorem read_putBits (data : Value) (n a : Nat) (m : Memory) (j : Nat) :
    Memory.read (putBits data n a m) j =
      if a ≤ j ∧ j < a + n then data.getLsbD (n - 1 - (j - a)) else Memory.read m j := by
  induction n generalizing a m with
  | zero => simp [putBits]
  | succ n ih =>
    rw [putBits, ih, read_write]
    by_cases h1 : a + 1 ≤ j ∧ j < a + 1 + n
    · rw [if_pos h1, if_pos (by omega)]
      congr 1; omega
    · rw [if_neg h1]
      by_cases h2 : j = a
      · subst h2; simp
      · rw [if_neg h2, if_neg (by omega)]

theorem rangeNat_succ (m : Memory) (a n : Nat) :
    rangeNat m a (n + 1) = 2 * rangeNat m a n + (Memory.read m (a + n)).toNat := rfl

/-- A range of `n` bits is below `2 ^ n`. -/
theorem rangeNat_lt (m : Memory) (a n : Nat) : rangeNat m a n < 2 ^ n := by
  induction n with
  | zero => simp [rangeNat]
  | succ n ih =>
    rw [rangeNat_succ, Nat.pow_succ]
    have := Bool.toNat_le (Memory.read m (a + n))
    omega

/-- A range reads only the bits of its span. -/
theorem rangeNat_congr {m m' : Memory} {a n : Nat}
    (h : ∀ i, a ≤ i → i < a + n → Memory.read m i = Memory.read m' i) :
    rangeNat m a n = rangeNat m' a n := by
  induction n with
  | zero => rfl
  | succ n ih =>
    rw [rangeNat_succ, rangeNat_succ, ih (fun i h1 h2 => h i h1 (by omega)),
      h (a + n) (by omega) (by omega)]

/-! ### The next set bit -/

/-- The next set bit from `f` in `n` places: the first index that reads 1, or none reads 1. -/
theorem nextSetFrom_spec (m : Memory) (n f : Nat) :
    match nextSetFrom m n f with
    | some i => f ≤ i ∧ i < f + n ∧ Memory.read m i = true
        ∧ ∀ k, f ≤ k → k < i → Memory.read m k = false
    | none => ∀ k, f ≤ k → k < f + n → Memory.read m k = false := by
  induction n generalizing f with
  | zero => intro k h1 h2; omega
  | succ n ih =>
    rw [nextSetFrom]
    by_cases hf : Memory.read m f = true
    · simp only [hf, if_true]
      exact ⟨le_refl _, by omega, trivial, fun k h1 h2 => by omega⟩
    · have hf' : Memory.read m f = false := by simpa using hf
      simp only [hf', Bool.false_eq_true, if_false]
      have := ih (f + 1)
      cases heq : nextSetFrom m n (f + 1) with
      | some i =>
        rw [heq] at this
        obtain ⟨h1, h2, h3, h4⟩ := this
        refine ⟨by omega, by omega, h3, fun k hk1 hk2 => ?_⟩
        by_cases hk : k = f
        · rw [hk]; exact hf'
        · exact h4 k (by omega) hk2
      | none =>
        rw [heq] at this
        intro k hk1 hk2
        by_cases hk : k = f
        · rw [hk]; exact hf'
        · exact this k (by omega) (by omega)

end Sys2Proof.Machine
end

