-- ==== Sys2Proof/Laws/Lookup.lean ====
section
/-!
SUPPORT. What the lookups of the block answer: the syndrome position, the frame class, the registry
entry, and the two helpers of the configuration check.
-/
namespace Sys2Proof.Machine

/-- The syndrome lookup answers a position of the table with that syndrome, or there is none
(41_crc_ecc.md R137). -/
theorem lookupSyndrome_spec (T : CorrTable) (res : Nat) :
    match lookupSyndrome T res with
    | some p => p < T.len ∧ synAt T.syn p = res
    | none => ∀ p < T.len, synAt T.syn p ≠ res := by
  unfold lookupSyndrome
  split <;> rename_i h
  · exact ⟨List.mem_range.mp (List.mem_of_find?_eq_some h), by simpa using List.find?_some h⟩
  · intro p hp
    simpa using List.find?_eq_none.mp h p (List.mem_range.mpr hp)

/-- A position the table lists gives its entry. -/
theorem synAt_of_lt {syn : List Nat} {p : Nat} (h : p < syn.length) : synAt syn p = syn[p] := by
  simp [synAt, h]

/-- The class located is in the table, matches, and no earlier one does; or none matches
(43_frame_sync.md R193). -/
theorem locateClass_spec (S : List SyncEntry) (m : Memory) (len : Nat) :
    match locateClass S m len with
    | some j => ∃ e, S[j]? = some e ∧ syncMatches m len e = true
        ∧ ∀ k < j, ∀ e', S[k]? = some e' → syncMatches m len e' = false
    | none => ∀ e ∈ S, syncMatches m len e = false := by
  unfold locateClass
  split <;> rename_i h
  · obtain ⟨hlt, hm, hk⟩ := List.findIdx?_eq_some_iff_getElem.mp h
    refine ⟨S[_], List.getElem?_eq_getElem hlt, hm, fun k hkj e' he' => ?_⟩
    obtain ⟨h1, rfl⟩ := List.getElem?_eq_some_iff.mp he'
    simpa using hk k hkj
  · exact List.findIdx?_eq_none_iff.mp h

/-- The registry index answers an entry with that code, or no entry has it (42_opcode_classifier.md
R173). -/
theorem findDef_spec (c : Cfg) (v : Nat) :
    match findDef c v with
    | some e => e ∈ c.opcDef ∧ e.code = v
    | none => ∀ e ∈ c.opcDef, e.code ≠ v := by
  unfold findDef
  split <;> rename_i h
  · exact ⟨List.mem_of_find?_eq_some h, by simpa using List.find?_some h⟩
  · intro e he
    simpa using List.find?_eq_none.mp h e he

/-- `occurs` is membership. -/
theorem occurs_eq_true_iff (x : Nat) (l : List Nat) : occurs x l = true ↔ x ∈ l := by
  induction l with
  | nil => simp [occurs]
  | cons y ys ih => simp [occurs, ih]

/-- `hasDup` finds exactly the lists with a repeated element. -/
theorem hasDup_eq_false_iff (l : List Nat) : hasDup l = false ↔ l.Nodup := by
  induction l with
  | nil => simp [hasDup]
  | cons x xs ih =>
    rw [hasDup, Bool.or_eq_false_iff, ih, List.nodup_cons, ← Bool.not_eq_true, occurs_eq_true_iff]

/-- `hasDupKey` finds exactly the tables with two entries of one key. -/
theorem hasDupKey_eq_false_iff (l : List SyncEntry) :
    hasDupKey l = false ↔ (l.map syncKey).Nodup := by
  induction l with
  | nil => simp [hasDupKey]
  | cons e es ih =>
    rw [hasDupKey, Bool.or_eq_false_iff, ih, List.map_cons, List.nodup_cons]
    refine and_congr_left fun _ => ?_
    simp only [List.any_eq_false, beq_iff_eq, List.mem_map, not_exists, not_and]
    exact forall₂_congr fun _ _ => not_congr eq_comm

/-- No cause is found exactly when every test passes. -/
theorem firstCause_eq_zero_iff (cs : List Nat) : firstCause cs = 0 ↔ ∀ c ∈ cs, c = 0 := by
  induction cs with
  | nil => simp [firstCause]
  | cons c cs ih =>
    by_cases h : c = 0 <;> simp [firstCause, h, ih]

end Sys2Proof.Machine
end

