-- ==== Sys2Proof/Laws/CfgCheck.lean ====
section
/-!
SUPPORT. What each test of the configuration check answers (70_reset_and_hazards.md R272), in the terms
of Safety.lean, and what the first failing test of a list is.
-/
namespace Sys2Proof.Machine

/-- The code of a list checked in order is that of its first illegal element. -/
theorem firstCause_map_eq_iff {α : Type} {f : α → Nat} {legal : α → Prop}
    (h0 : ∀ x, f x = 0 ↔ legal x) (xs : List α) {n : Nat} (hn : n ≠ 0) :
    firstCause (xs.map f) = n ↔ ∃ x, firstIllegal legal xs x ∧ f x = n := by
  induction xs with
  | nil =>
    refine ⟨fun h => absurd h.symm hn, ?_⟩
    rintro ⟨x, ⟨before, after, h, -⟩, -⟩
    simp at h
  | cons y ys ih =>
    simp only [List.map_cons, firstCause]
    by_cases hy : f y = 0
    · rw [if_pos hy, ih]
      constructor
      · rintro ⟨x, ⟨before, after, rfl, hb, hx⟩, hf⟩
        refine ⟨x, ⟨y :: before, after, rfl, ?_, hx⟩, hf⟩
        intro z hz
        rcases List.mem_cons.1 hz with rfl | hz
        · exact (h0 _).1 hy
        · exact hb z hz
      · rintro ⟨x, ⟨before, after, h, hb, hx⟩, hf⟩
        cases before with
        | nil => simp at h; obtain ⟨rfl, rfl⟩ := h; omega
        | cons z before =>
          simp at h
          obtain ⟨rfl, rfl⟩ := h
          exact ⟨x, ⟨before, after, rfl, fun w hw => hb w (by simp [hw]), hx⟩, hf⟩
    · rw [if_neg hy]
      refine ⟨fun h => ⟨y, ⟨[], ys, rfl, by simp, fun hl => hy ((h0 _).2 hl)⟩, h⟩, ?_⟩
      rintro ⟨x, ⟨before, after, h, hb, -⟩, hf⟩
      cases before with
      | nil => simp at h; obtain ⟨rfl, -⟩ := h; exact hf
      | cons z before => simp at h; obtain ⟨rfl, -⟩ := h; exact absurd ((h0 _).2 (hb y (by simp))) hy

/-- Three tests in order, each with its own code. -/
theorem three_tests {P Q R : Prop} {p q r : Bool} (hp : p = true ↔ ¬ P) (hq : q = true ↔ ¬ Q)
    (hr : r = true ↔ ¬ R) {a b c : Nat} (ha : 0 < a) (hb : a < b) (hc : b < c) {n : Nat}
    (hn : n = if p then a else if q then b else if r then c else 0) :
    (n = 0 ↔ P ∧ Q ∧ R) ∧ (n = a ↔ ¬ P) ∧ (n = b ↔ P ∧ ¬ Q) ∧ (n = c ↔ P ∧ Q ∧ ¬ R) ∧ n ≤ c := by
  by_cases hP : P <;> by_cases hQ : Q <;> by_cases hR : R <;>
    simp [hP, hQ, hR] at hp hq hr <;> simp [hp, hq, hr] at hn <;> simp [hP, hQ, hR] <;> omega

theorem hasDup_eq_true_iff (l : List Nat) : hasDup l = true ↔ ¬ l.Nodup := by
  rw [← hasDup_eq_false_iff]; simp

/-- Tests 2 to 4 of R272 on one table. -/
theorem corrTableCause_spec (T : CorrTable) :
    (corrTableCause T = 0 ↔ corrTableLegal T) ∧ (corrTableCause T = 1 ↔ ¬ corrShapeLegal T)
      ∧ (corrTableCause T = 2 ↔ corrShapeLegal T ∧ ¬ corrEntriesFit T)
      ∧ (corrTableCause T = 3 ↔ corrShapeLegal T ∧ corrEntriesFit T ∧ ¬ T.syn.Nodup)
      ∧ corrTableCause T ≤ 3 := by
  have hs : (T.width < 1 || 16 < T.width || T.len < 1 || T.syn.length != T.len) = true
      ↔ ¬ corrShapeLegal T := by simp [corrShapeLegal]; omega
  have hf : T.syn.any (fun e => 2 ^ T.width ≤ e) = true ↔ ¬ corrEntriesFit T := by
    simp [corrEntriesFit]
  exact three_tests hs hf (hasDup_eq_true_iff _) (by decide) (by decide) (by decide) rfl

/-- Tests 5 to 7 of R272 on one table. -/
theorem crc9TableCause_spec (U : Crc9Table) :
    (crc9TableCause U = 0 ↔ crc9TableLegal U) ∧ (crc9TableCause U = 4 ↔ ¬ crc9ShapeLegal U)
      ∧ (crc9TableCause U = 5 ↔ crc9ShapeLegal U ∧ ¬ crc9EntriesFit U)
      ∧ (crc9TableCause U = 6 ↔ crc9ShapeLegal U ∧ crc9EntriesFit U ∧ ¬ U.syn.Nodup)
      ∧ crc9TableCause U ≤ 6 := by
  have hs : (U.len < 1 || U.syn.length != U.len) = true ↔ ¬ crc9ShapeLegal U := by
    simp [crc9ShapeLegal]; omega
  have hf : U.syn.any (fun e => 2 ^ 9 ≤ e) = true ↔ ¬ crc9EntriesFit U := by simp [crc9EntriesFit]
  exact three_tests hs hf (hasDup_eq_true_iff _) (by decide) (by decide) (by decide) rfl

theorem lengthLegal_iff (l : PayLen) : lengthLegal l = true ↔ payLenLegal l := by
  cases l <;> simp [lengthLegal, payLenLegal]

/-- Test 9 of R272 on one entry. -/
theorem opcDefCause_spec (e : OpcDef) :
    (opcDefCause e = 0 ↔ opcDefLegal e) ∧ (opcDefCause e = 7 ↔ 255 < e.code)
      ∧ (opcDefCause e = 9 ↔ e.code ≤ 255 ∧ ¬ payLenLegal e.length)
      ∧ (opcDefCause e = 0 ∨ opcDefCause e = 7 ∨ opcDefCause e = 9) := by
  have hl := lengthLegal_iff e.length
  unfold opcDefCause opcDefLegal
  rw [← hl]
  by_cases hc : 255 < e.code <;> cases lengthLegal e.length <;> simp [hc] <;> omega

/-- `END_j` is the least bound of the present regions' ends. -/
theorem regionsEnd_le_iff (e : SyncEntry) (n : Nat) :
    regionsEnd e ≤ n ↔ ∀ r ∈ presentRegions e, r.1 + r.2 ≤ n := by
  unfold regionsEnd
  generalize presentRegions e = l
  induction l with
  | nil => simp
  | cons a l ih => simp [ih]

theorem anyOverlap_eq_false_iff (l : List (Nat × Nat)) :
    anyOverlap l = false ↔ l.Pairwise (fun r q => r.1 + r.2 ≤ q.1 ∨ q.1 + q.2 ≤ r.1) := by
  induction l with
  | nil => simp [anyOverlap]
  | cons a l ih =>
    simp only [anyOverlap, Bool.or_eq_false_iff, ih, List.pairwise_cons, List.any_eq_false,
      regionsOverlap, Bool.and_eq_true, decide_eq_true_eq]
    refine and_congr ⟨fun h q hq => ?_, fun h q hq => ?_⟩ Iff.rfl <;> have := h q hq <;> omega

/-- Test 12 of R272 on one entry. -/
theorem syncEntryCause_spec (cap : Nat) (e : SyncEntry) :
    (syncEntryCause cap e = 0 ↔ syncEntryLegal cap e)
      ∧ (syncEntryCause cap e = 0 ∨ syncEntryCause cap e = 10) := by
  unfold syncEntryCause syncEntryLegal
  rw [← regionsEnd_le_iff, ← anyOverlap_eq_false_iff]
  cases e.hasSub <;> cases anyOverlap (presentRegions e) <;> simp <;> omega

end Sys2Proof.Machine
end

