-- ==== Sys2Proof/Laws/State.lean ====
section
/-!
SUPPORT. One lemma per field per register update of Machine/Ops.lean: later proofs read a field of an
updated state without unfolding the update.
-/
namespace Sys2Proof.Machine

/-! ### `State.respond` -/

section
variable (s : State) (st : Status) (v : Value)

@[simp] theorem respond_cfg : (s.respond st v).cfg = s.cfg := rfl
@[simp] theorem respond_port : (s.respond st v).port = s.port := rfl
@[simp] theorem respond_buf : (s.respond st v).buf = s.buf := rfl
@[simp] theorem respond_len : (s.respond st v).len = s.len := rfl
@[simp] theorem respond_ccount : (s.respond st v).ccount = s.ccount := rfl
@[simp] theorem respond_verdict : (s.respond st v).verdict = s.verdict := rfl
@[simp] theorem respond_aborted : (s.respond st v).aborted = s.aborted := rfl
@[simp] theorem respond_faultCause : (s.respond st v).faultCause = s.faultCause := rfl
@[simp] theorem respond_faultInfo : (s.respond st v).faultInfo = s.faultInfo := rfl
@[simp] theorem respond_fvalid : (s.respond st v).fvalid = s.fvalid := rfl
@[simp] theorem respond_fclass : (s.respond st v).fclass = s.fclass := rfl
@[simp] theorem respond_subc : (s.respond st v).subc = s.subc := rfl
@[simp] theorem respond_subview : (s.respond st v).subview = s.subview := rfl
@[simp] theorem respond_cfgFault : (s.respond st v).cfgFault = s.cfgFault := rfl
@[simp] theorem respond_cfgCause : (s.respond st v).cfgCause = s.cfgCause := rfl
@[simp] theorem respond_status : (s.respond st v).status = st := rfl
@[simp] theorem respond_result : (s.respond st v).result = v := rfl

end

/-! ### `State.withBuf` -/

section
variable (s : State) (m : Memory)

@[simp] theorem withBuf_cfg : (s.withBuf m).cfg = s.cfg := rfl
@[simp] theorem withBuf_port : (s.withBuf m).port = s.port := rfl
@[simp] theorem withBuf_buf : (s.withBuf m).buf = m := rfl
@[simp] theorem withBuf_len : (s.withBuf m).len = s.len := rfl
@[simp] theorem withBuf_ccount : (s.withBuf m).ccount = s.ccount := rfl
@[simp] theorem withBuf_verdict : (s.withBuf m).verdict = s.verdict := rfl
@[simp] theorem withBuf_aborted : (s.withBuf m).aborted = s.aborted := rfl
@[simp] theorem withBuf_faultCause : (s.withBuf m).faultCause = s.faultCause := rfl
@[simp] theorem withBuf_faultInfo : (s.withBuf m).faultInfo = s.faultInfo := rfl
@[simp] theorem withBuf_fvalid : (s.withBuf m).fvalid = s.fvalid := rfl
@[simp] theorem withBuf_fclass : (s.withBuf m).fclass = s.fclass := rfl
@[simp] theorem withBuf_subc : (s.withBuf m).subc = s.subc := rfl
@[simp] theorem withBuf_subview : (s.withBuf m).subview = s.subview := rfl
@[simp] theorem withBuf_cfgFault : (s.withBuf m).cfgFault = s.cfgFault := rfl
@[simp] theorem withBuf_cfgCause : (s.withBuf m).cfgCause = s.cfgCause := rfl
@[simp] theorem withBuf_status : (s.withBuf m).status = s.status := rfl
@[simp] theorem withBuf_result : (s.withBuf m).result = s.result := rfl

end

/-! ### `State.setVerdict` -/

section
variable (s : State) (v : Verdict)

@[simp] theorem setVerdict_cfg : (s.setVerdict v).cfg = s.cfg := rfl
@[simp] theorem setVerdict_port : (s.setVerdict v).port = s.port := rfl
@[simp] theorem setVerdict_buf : (s.setVerdict v).buf = s.buf := rfl
@[simp] theorem setVerdict_len : (s.setVerdict v).len = s.len := rfl
@[simp] theorem setVerdict_ccount : (s.setVerdict v).ccount = s.ccount := rfl
@[simp] theorem setVerdict_verdict : (s.setVerdict v).verdict = v := rfl
@[simp] theorem setVerdict_aborted : (s.setVerdict v).aborted = s.aborted := rfl
@[simp] theorem setVerdict_faultCause : (s.setVerdict v).faultCause = s.faultCause := rfl
@[simp] theorem setVerdict_faultInfo : (s.setVerdict v).faultInfo = s.faultInfo := rfl
@[simp] theorem setVerdict_fvalid : (s.setVerdict v).fvalid = s.fvalid := rfl
@[simp] theorem setVerdict_fclass : (s.setVerdict v).fclass = s.fclass := rfl
@[simp] theorem setVerdict_subc : (s.setVerdict v).subc = s.subc := rfl
@[simp] theorem setVerdict_subview : (s.setVerdict v).subview = s.subview := rfl
@[simp] theorem setVerdict_cfgFault : (s.setVerdict v).cfgFault = s.cfgFault := rfl
@[simp] theorem setVerdict_cfgCause : (s.setVerdict v).cfgCause = s.cfgCause := rfl
@[simp] theorem setVerdict_status : (s.setVerdict v).status = s.status := rfl
@[simp] theorem setVerdict_result : (s.setVerdict v).result = s.result := rfl

end

/-! ### `State.incCorr` -/

section
variable (s : State) (n : Nat)

@[simp] theorem incCorr_cfg : (s.incCorr n).cfg = s.cfg := rfl
@[simp] theorem incCorr_port : (s.incCorr n).port = s.port := rfl
@[simp] theorem incCorr_buf : (s.incCorr n).buf = s.buf := rfl
@[simp] theorem incCorr_len : (s.incCorr n).len = s.len := rfl
@[simp] theorem incCorr_ccount : (s.incCorr n).ccount = sat32 (s.ccount.toNat + n) := rfl
@[simp] theorem incCorr_verdict : (s.incCorr n).verdict = s.verdict := rfl
@[simp] theorem incCorr_aborted : (s.incCorr n).aborted = s.aborted := rfl
@[simp] theorem incCorr_faultCause : (s.incCorr n).faultCause = s.faultCause := rfl
@[simp] theorem incCorr_faultInfo : (s.incCorr n).faultInfo = s.faultInfo := rfl
@[simp] theorem incCorr_fvalid : (s.incCorr n).fvalid = s.fvalid := rfl
@[simp] theorem incCorr_fclass : (s.incCorr n).fclass = s.fclass := rfl
@[simp] theorem incCorr_subc : (s.incCorr n).subc = s.subc := rfl
@[simp] theorem incCorr_subview : (s.incCorr n).subview = s.subview := rfl
@[simp] theorem incCorr_cfgFault : (s.incCorr n).cfgFault = s.cfgFault := rfl
@[simp] theorem incCorr_cfgCause : (s.incCorr n).cfgCause = s.cfgCause := rfl
@[simp] theorem incCorr_status : (s.incCorr n).status = s.status := rfl
@[simp] theorem incCorr_result : (s.incCorr n).result = s.result := rfl

end

/-! ### `State.abortFrame` -/

section
variable (s : State) (cause : BitVec 8) (x : Half)

@[simp] theorem abortFrame_cfg : (s.abortFrame cause x).cfg = s.cfg := rfl
@[simp] theorem abortFrame_port : (s.abortFrame cause x).port = s.port := rfl
@[simp] theorem abortFrame_buf : (s.abortFrame cause x).buf = s.buf := rfl
@[simp] theorem abortFrame_len : (s.abortFrame cause x).len = s.len := rfl
@[simp] theorem abortFrame_ccount : (s.abortFrame cause x).ccount = s.ccount := rfl
@[simp] theorem abortFrame_verdict : (s.abortFrame cause x).verdict = s.verdict := rfl
@[simp] theorem abortFrame_aborted : (s.abortFrame cause x).aborted = true := rfl
@[simp] theorem abortFrame_faultCause : (s.abortFrame cause x).faultCause = cause := rfl
@[simp] theorem abortFrame_faultInfo : (s.abortFrame cause x).faultInfo = x.setWidth 32 := rfl
@[simp] theorem abortFrame_fvalid : (s.abortFrame cause x).fvalid = s.fvalid := rfl
@[simp] theorem abortFrame_fclass : (s.abortFrame cause x).fclass = s.fclass := rfl
@[simp] theorem abortFrame_subc : (s.abortFrame cause x).subc = s.subc := rfl
@[simp] theorem abortFrame_subview : (s.abortFrame cause x).subview = s.subview := rfl
@[simp] theorem abortFrame_cfgFault : (s.abortFrame cause x).cfgFault = s.cfgFault := rfl
@[simp] theorem abortFrame_cfgCause : (s.abortFrame cause x).cfgCause = s.cfgCause := rfl
@[simp] theorem abortFrame_status : (s.abortFrame cause x).status = s.status := rfl
@[simp] theorem abortFrame_result : (s.abortFrame cause x).result = s.result := rfl

end

/-! ### `State.newContext` -/

section
variable (s : State) (n : Half)

@[simp] theorem newContext_cfg : (s.newContext n).cfg = s.cfg := rfl
@[simp] theorem newContext_port : (s.newContext n).port = s.port := rfl
@[simp] theorem newContext_buf : (s.newContext n).buf = [] := rfl
@[simp] theorem newContext_len : (s.newContext n).len = n := rfl
@[simp] theorem newContext_ccount : (s.newContext n).ccount = 0#32 := rfl
@[simp] theorem newContext_verdict : (s.newContext n).verdict = .unset := rfl
@[simp] theorem newContext_aborted : (s.newContext n).aborted = false := rfl
@[simp] theorem newContext_faultCause : (s.newContext n).faultCause = 0#8 := rfl
@[simp] theorem newContext_faultInfo : (s.newContext n).faultInfo = 0#32 := rfl
@[simp] theorem newContext_fvalid : (s.newContext n).fvalid = false := rfl
@[simp] theorem newContext_fclass : (s.newContext n).fclass = 0#8 := rfl
@[simp] theorem newContext_subc : (s.newContext n).subc = false := rfl
@[simp] theorem newContext_subview : (s.newContext n).subview = 0#32 := rfl
@[simp] theorem newContext_cfgFault : (s.newContext n).cfgFault = s.cfgFault := rfl
@[simp] theorem newContext_cfgCause : (s.newContext n).cfgCause = s.cfgCause := rfl
@[simp] theorem newContext_status : (s.newContext n).status = s.status := rfl
@[simp] theorem newContext_result : (s.newContext n).result = s.result := rfl

end

/-! ### `State.setFrame` -/

section
variable (s : State) (j : BitVec 8)

@[simp] theorem setFrame_cfg : (s.setFrame j).cfg = s.cfg := rfl
@[simp] theorem setFrame_port : (s.setFrame j).port = s.port := rfl
@[simp] theorem setFrame_buf : (s.setFrame j).buf = s.buf := rfl
@[simp] theorem setFrame_len : (s.setFrame j).len = s.len := rfl
@[simp] theorem setFrame_ccount : (s.setFrame j).ccount = s.ccount := rfl
@[simp] theorem setFrame_verdict : (s.setFrame j).verdict = s.verdict := rfl
@[simp] theorem setFrame_aborted : (s.setFrame j).aborted = s.aborted := rfl
@[simp] theorem setFrame_faultCause : (s.setFrame j).faultCause = s.faultCause := rfl
@[simp] theorem setFrame_faultInfo : (s.setFrame j).faultInfo = s.faultInfo := rfl
@[simp] theorem setFrame_fvalid : (s.setFrame j).fvalid = true := rfl
@[simp] theorem setFrame_fclass : (s.setFrame j).fclass = j := rfl
@[simp] theorem setFrame_subc : (s.setFrame j).subc = false := rfl
@[simp] theorem setFrame_subview : (s.setFrame j).subview = s.subview := rfl
@[simp] theorem setFrame_cfgFault : (s.setFrame j).cfgFault = s.cfgFault := rfl
@[simp] theorem setFrame_cfgCause : (s.setFrame j).cfgCause = s.cfgCause := rfl
@[simp] theorem setFrame_status : (s.setFrame j).status = s.status := rfl
@[simp] theorem setFrame_result : (s.setFrame j).result = s.result := rfl

end

/-! ### `State.fillSub` -/

section
variable (s : State) (view : Value)

@[simp] theorem fillSub_cfg : (s.fillSub view).cfg = s.cfg := rfl
@[simp] theorem fillSub_port : (s.fillSub view).port = s.port := rfl
@[simp] theorem fillSub_buf : (s.fillSub view).buf = s.buf := rfl
@[simp] theorem fillSub_len : (s.fillSub view).len = s.len := rfl
@[simp] theorem fillSub_ccount : (s.fillSub view).ccount = s.ccount := rfl
@[simp] theorem fillSub_verdict : (s.fillSub view).verdict = s.verdict := rfl
@[simp] theorem fillSub_aborted : (s.fillSub view).aborted = s.aborted := rfl
@[simp] theorem fillSub_faultCause : (s.fillSub view).faultCause = s.faultCause := rfl
@[simp] theorem fillSub_faultInfo : (s.fillSub view).faultInfo = s.faultInfo := rfl
@[simp] theorem fillSub_fvalid : (s.fillSub view).fvalid = s.fvalid := rfl
@[simp] theorem fillSub_fclass : (s.fillSub view).fclass = s.fclass := rfl
@[simp] theorem fillSub_subc : (s.fillSub view).subc = true := rfl
@[simp] theorem fillSub_subview : (s.fillSub view).subview = view := rfl
@[simp] theorem fillSub_cfgFault : (s.fillSub view).cfgFault = s.cfgFault := rfl
@[simp] theorem fillSub_cfgCause : (s.fillSub view).cfgCause = s.cfgCause := rfl
@[simp] theorem fillSub_status : (s.fillSub view).status = s.status := rfl
@[simp] theorem fillSub_result : (s.fillSub view).result = s.result := rfl

end

/-! ### `State.withPort` -/

section
variable (s : State) (p : List HostInput)

@[simp] theorem withPort_cfg : (s.withPort p).cfg = s.cfg := rfl
@[simp] theorem withPort_port : (s.withPort p).port = p := rfl
@[simp] theorem withPort_buf : (s.withPort p).buf = s.buf := rfl
@[simp] theorem withPort_len : (s.withPort p).len = s.len := rfl
@[simp] theorem withPort_ccount : (s.withPort p).ccount = s.ccount := rfl
@[simp] theorem withPort_verdict : (s.withPort p).verdict = s.verdict := rfl
@[simp] theorem withPort_aborted : (s.withPort p).aborted = s.aborted := rfl
@[simp] theorem withPort_faultCause : (s.withPort p).faultCause = s.faultCause := rfl
@[simp] theorem withPort_faultInfo : (s.withPort p).faultInfo = s.faultInfo := rfl
@[simp] theorem withPort_fvalid : (s.withPort p).fvalid = s.fvalid := rfl
@[simp] theorem withPort_fclass : (s.withPort p).fclass = s.fclass := rfl
@[simp] theorem withPort_subc : (s.withPort p).subc = s.subc := rfl
@[simp] theorem withPort_subview : (s.withPort p).subview = s.subview := rfl
@[simp] theorem withPort_cfgFault : (s.withPort p).cfgFault = s.cfgFault := rfl
@[simp] theorem withPort_cfgCause : (s.withPort p).cfgCause = s.cfgCause := rfl
@[simp] theorem withPort_status : (s.withPort p).status = s.status := rfl
@[simp] theorem withPort_result : (s.withPort p).result = s.result := rfl

end

end Sys2Proof.Machine
end

