-- ==== Sys2Proof/Laws/Checks.lean ====
section
/-!
SUPPORT. What the check sequence of a command and a raised fault can do, said once.
-/
namespace Sys2Proof.Machine

/-- The check sequence always gives a next state: the fault's, or the effect's. -/
theorem runCommand_cases (g : Gate) (effect : State → State) (s : State) :
    (∃ r, firstRaised g s = some r ∧ runCommand g effect s = .next (s.raise r))
      ∨ (firstRaised g s = none ∧ runCommand g effect s = .next (effect s)) := by
  unfold runCommand
  cases h : firstRaised g s with
  | some r => exact .inl ⟨r, rfl, rfl⟩
  | none => exact .inr ⟨rfl, rfl⟩

/-- Nothing is raised exactly when every check of 60_exceptions.md R240 passes. -/
theorem firstRaised_eq_none (g : Gate) (s : State) :
    firstRaised g s = none ↔
      (g.needsConfig = true → s.cfgFault = false) ∧ g.legal = true
        ∧ (g.frameDependent = true → s.aborted = false) ∧ g.stateOk = true ∧ g.bounds = none := by
  unfold firstRaised
  cases g.needsConfig <;> cases s.cfgFault <;> cases g.legal <;> cases g.frameDependent <;>
    cases s.aborted <;> cases g.stateOk <;> simp

/-- What is raised, and by which check (60_exceptions.md R240, steps 2 to 6). -/
theorem firstRaised_eq_some {g : Gate} {s : State} {r : Raised} (h : firstRaised g s = some r) :
    (r = .configFault ∧ g.needsConfig = true ∧ s.cfgFault = true)
      ∨ (r = .illegalOperand ∧ g.legal = false)
      ∨ (r = .frameAborted ∧ g.frameDependent = true ∧ s.aborted = true)
      ∨ (r = .stateError ∧ g.stateOk = false)
      ∨ (g.bounds = some r ∧ g.stateOk = true ∧ (g.frameDependent = true → s.aborted = false)) := by
  unfold firstRaised at h
  cases h1 : g.needsConfig <;> cases h2 : s.cfgFault <;> cases h3 : g.legal <;>
    cases h4 : g.frameDependent <;> cases h5 : s.aborted <;> cases h6 : g.stateOk <;>
    simp_all

/-- A command all of whose checks pass has its effect. -/
theorem runCommand_effect {g : Gate} {s : State} (h : firstRaised g s = none)
    (effect : State → State) : runCommand g effect s = .next (effect s) := by
  rw [runCommand, h]

/-- A command one of whose checks raises has no effect beside the fault's. -/
theorem runCommand_raise {g : Gate} {s : State} {r : Raised} (h : firstRaised g s = some r)
    (effect : State → State) : runCommand g effect s = .next (s.raise r) := by
  rw [runCommand, h]

/-- The status a raised fault answers (60_exceptions.md R231). -/
def raisedStatus : Raised → Status
  | .indexError _ => .indexError
  | .rangeError _ => .rangeError
  | .stateError => .stateError
  | .illegalCommand => .illegalCommand
  | .illegalOperand => .illegalOperand
  | .frameAborted => .frameAborted
  | .configFault => .configFault

@[simp] theorem raise_status (s : State) (r : Raised) : (s.raise r).status = raisedStatus r := by
  cases r <;> rfl

@[simp] theorem raise_result (s : State) (r : Raised) : (s.raise r).result = 0#32 := by
  cases r <;> rfl

/-- A raised fault writes the response, and beside it only `ABORTED` and the fault registers
(60_exceptions.md R233, R236). -/
theorem raise_frame (s : State) (r : Raised) :
    s.raise r = { s with
      aborted := (s.raise r).aborted
      faultCause := (s.raise r).faultCause
      faultInfo := (s.raise r).faultInfo
      status := raisedStatus r
      result := 0#32 } := by
  cases r <;> rfl

theorem rangeCheck_eq_none (bad : Bool) (x : Half) : rangeCheck bad x = none ↔ bad = false := by
  cases bad <;> simp [rangeCheck]

theorem indexCheck_eq_none (s : State) (i : Half) :
    indexCheck s i = none ↔ i.toNat < s.len.toNat := by
  unfold indexCheck
  split <;> simp <;> omega

/-- `sat32` never exceeds what it is given. -/
theorem sat32_toNat_le (v : Nat) : (sat32 v).toNat ≤ v := by
  unfold sat32
  rw [BitVec.toNat_ofNat]
  exact le_trans (Nat.mod_le _ _) (min_le_left _ _)

end Sys2Proof.Machine
end

