-- ==== Sys2Proof/Laws/Fields.lean ====
section
/-!
SUPPORT. The fields of an assembled word are the fields it was assembled from (30_encoding.md R71), and
an assembled word masked by its format's fixed bits (R73) is its `OPC` alone when the reserved fields
are zero.
-/
namespace Sys2Proof

section
variable (o d : BitVec 8) (a b c : Half) (v : Value)

@[simp] theorem wordOpc_assembleDABC : wordOpc (assembleDABC o d a b c) = o := by
  simp only [wordOpc, assembleDABC]
  ext i hi
  simp only [BitVec.getElem_extractLsb', BitVec.getLsbD_append]
  grind

@[simp] theorem wordD_assembleDABC : wordD (assembleDABC o d a b c) = d := by
  simp only [wordD, assembleDABC]
  ext i hi
  simp only [BitVec.getElem_extractLsb', BitVec.getLsbD_append]
  grind

@[simp] theorem wordA_assembleDABC : wordA (assembleDABC o d a b c) = a := by
  simp only [wordA, assembleDABC]
  ext i hi
  simp only [BitVec.getElem_extractLsb', BitVec.getLsbD_append]
  grind

@[simp] theorem wordB_assembleDABC : wordB (assembleDABC o d a b c) = b := by
  simp only [wordB, assembleDABC]
  ext i hi
  simp only [BitVec.getElem_extractLsb', BitVec.getLsbD_append]
  grind

@[simp] theorem wordC_assembleDABC : wordC (assembleDABC o d a b c) = c := by
  simp only [wordC, assembleDABC]
  ext i hi
  simp only [BitVec.getElem_extractLsb', BitVec.getLsbD_append]
  grind

@[simp] theorem wordOpc_assembleDAV : wordOpc (assembleDAV o d a v) = o := by
  simp only [wordOpc, assembleDAV]
  ext i hi
  simp only [BitVec.getElem_extractLsb', BitVec.getLsbD_append]
  grind

@[simp] theorem wordD_assembleDAV : wordD (assembleDAV o d a v) = d := by
  simp only [wordD, assembleDAV]
  ext i hi
  simp only [BitVec.getElem_extractLsb', BitVec.getLsbD_append]
  grind

@[simp] theorem wordA_assembleDAV : wordA (assembleDAV o d a v) = a := by
  simp only [wordA, assembleDAV]
  ext i hi
  simp only [BitVec.getElem_extractLsb', BitVec.getLsbD_append]
  grind

@[simp] theorem wordV_assembleDAV : wordV (assembleDAV o d a v) = v := by
  simp only [wordV, assembleDAV]
  ext i hi
  simp only [BitVec.getElem_extractLsb', BitVec.getLsbD_append]
  grind

end

/-- Masking an assembled word masks its fields. -/
theorem assembleDABC_and (o d o' d' : BitVec 8) (a b c a' b' c' : Half) :
    assembleDABC o d a b c &&& assembleDABC o' d' a' b' c'
      = assembleDABC (o &&& o') (d &&& d') (a &&& a') (b &&& b') (c &&& c') := by
  simp only [assembleDABC]
  ext i hi
  simp only [BitVec.getElem_and, BitVec.getElem_append]
  grind

/-- Masking an assembled word masks its fields, in the form with `V`. -/
theorem assembleDAV_and (o d o' d' : BitVec 8) (a a' : Half) (v v' : Value) :
    assembleDAV o d a v &&& assembleDAV o' d' a' v'
      = assembleDAV (o &&& o') (d &&& d') (a &&& a') (v &&& v') := by
  simp only [assembleDAV]
  ext i hi
  simp only [BitVec.getElem_and, BitVec.getElem_append]
  grind

end Sys2Proof
end

