-- ==== Sys2Proof/Laws/PerInstr.lean ====
section
/-!
SUPPORT. The family `OpcodeRow`: the word of a command, masked by the fixed bits of its format, is the
`match` value of its row (30_encoding.md R73, R74).
-/
namespace Sys2Proof.Laws.OpcodeRow

/-- The encoded command agrees with its row of the opcode map. -/
def Statement (i : Instr) : Prop :=
  encode i &&& formatMask (formatOf i) = matchOf i

theorem mask_n : formatMask .n = assembleDABC 0xFF#8 0xFF#8 0xFFFF#16 0xFFFF#16 0xFFFF#16 := by
  decide

theorem mask_a : formatMask .a = assembleDABC 0xFF#8 0xFF#8 0#16 0xFFFF#16 0xFFFF#16 := by
  decide

theorem mask_d : formatMask .d = assembleDABC 0xFF#8 0#8 0xFFFF#16 0xFFFF#16 0xFFFF#16 := by
  decide

theorem mask_ab : formatMask .ab = assembleDABC 0xFF#8 0xFF#8 0#16 0#16 0xFFFF#16 := by
  decide

theorem mask_dab : formatMask .dab = assembleDABC 0xFF#8 0#8 0#16 0#16 0xFFFF#16 := by
  decide

theorem mask_dabc : formatMask .dabc = assembleDABC 0xFF#8 0#8 0#16 0#16 0#16 := by
  decide

theorem mask_v : formatMask .v = assembleDAV 0xFF#8 0xFF#8 0xFFFF#16 0#32 := by
  decide

theorem mask_dav : formatMask .dav = assembleDAV 0xFF#8 0#8 0#16 0#32 := by
  decide

theorem bufInit (len : Half) : Statement (.bufInit len) := by
  simp only [Statement, encode, formatOf, matchOf, mask_a, assembleDABC_and, BitVec.and_zero,
    BitVec.zero_and]
  rfl

theorem bufPut (start : Half) (count : BitVec 8) (data : Value) : Statement (.bufPut start count data) := by
  simp only [Statement, encode, formatOf, matchOf, mask_dav, assembleDAV_and, BitVec.and_zero]
  rfl

theorem bitGet (i : Half) : Statement (.bitGet i) := by
  simp only [Statement, encode, formatOf, matchOf, mask_a, assembleDABC_and, BitVec.and_zero,
    BitVec.zero_and]
  rfl

theorem bitSet (i : Half) : Statement (.bitSet i) := by
  simp only [Statement, encode, formatOf, matchOf, mask_a, assembleDABC_and, BitVec.and_zero,
    BitVec.zero_and]
  rfl

theorem bitFlip (i : Half) : Statement (.bitFlip i) := by
  simp only [Statement, encode, formatOf, matchOf, mask_a, assembleDABC_and, BitVec.and_zero,
    BitVec.zero_and]
  rfl

theorem bitNsb (start : Half) : Statement (.bitNsb start) := by
  simp only [Statement, encode, formatOf, matchOf, mask_a, assembleDABC_and, BitVec.and_zero,
    BitVec.zero_and]
  rfl

theorem bufGetr (start : Half) (stop : Half) (w : BitVec 8) : Statement (.bufGetr start stop w) := by
  simp only [Statement, encode, formatOf, matchOf, mask_dab, assembleDABC_and, BitVec.and_zero,
    BitVec.zero_and]
  rfl

theorem crcCorr (t : BitVec 8) (ms : Half) (cs : Half) (seed : Half) : Statement (.crcCorr t ms cs seed) := by
  simp only [Statement, encode, formatOf, matchOf, mask_dabc, assembleDABC_and, BitVec.and_zero]
  rfl

theorem crc9Chk (t : BitVec 8) (ms : Half) (cs : Half) : Statement (.crc9Chk t ms cs) := by
  simp only [Statement, encode, formatOf, matchOf, mask_dab, assembleDABC_and, BitVec.and_zero,
    BitVec.zero_and]
  rfl

theorem crc8Calc (start : Half) (count : Half) : Statement (.crc8Calc start count) := by
  simp only [Statement, encode, formatOf, matchOf, mask_ab, assembleDABC_and, BitVec.and_zero,
    BitVec.zero_and]
  rfl

theorem opcLookup (value : Value) : Statement (.opcLookup value) := by
  simp only [Statement, encode, formatOf, matchOf, mask_v, assembleDAV_and, BitVec.and_zero,
    BitVec.zero_and]
  rfl

theorem opcIsvar (id : Half) : Statement (.opcIsvar id) := by
  simp only [Statement, encode, formatOf, matchOf, mask_a, assembleDABC_and, BitVec.and_zero,
    BitVec.zero_and]
  rfl

theorem opcDesc (id : Half) : Statement (.opcDesc id) := by
  simp only [Statement, encode, formatOf, matchOf, mask_a, assembleDABC_and, BitVec.and_zero,
    BitVec.zero_and]
  rfl

theorem frmLocate : Statement .frmLocate := by
  simp only [Statement, encode, formatOf, matchOf, mask_n, assembleDABC_and, BitVec.zero_and]
  rfl

theorem frmHassub : Statement .frmHassub := by
  simp only [Statement, encode, formatOf, matchOf, mask_n, assembleDABC_and, BitVec.zero_and]
  rfl

theorem frmGetsub : Statement .frmGetsub := by
  simp only [Statement, encode, formatOf, matchOf, mask_n, assembleDABC_and, BitVec.zero_and]
  rfl

theorem frmPayload (seg : BitVec 8) : Statement (.frmPayload seg) := by
  simp only [Statement, encode, formatOf, matchOf, mask_d, assembleDABC_and, BitVec.and_zero,
    BitVec.zero_and]
  rfl

theorem rdReg (sel : BitVec 8) : Statement (.rdReg sel) := by
  simp only [Statement, encode, formatOf, matchOf, mask_d, assembleDABC_and, BitVec.and_zero,
    BitVec.zero_and]
  rfl

end Sys2Proof.Laws.OpcodeRow
end

