-- ==== Sys2Proof/Laws/Step.lean ====
section
/-!
SUPPORT. What one step can be, said once (60_exceptions.md R230).
-/
namespace Sys2Proof.Machine

/-- A step by the host's next input: waiting, reset, a command, or a word that is no command. -/
theorem step_cases (s : State) :
    (s.port = [] ∧ step s = .next s)
      ∨ (∃ c rest, s.port = .reset c :: rest
          ∧ step s = .next ((State.resetWith c).withPort rest))
      ∨ (∃ w rest i, s.port = .command w :: rest ∧ decode w = .ok i
          ∧ step s = exec i (s.withPort rest))
      ∨ (∃ w rest r, s.port = .command w :: rest ∧ decode w = .error r
          ∧ step s = .next ((s.withPort rest).raise .illegalCommand)) := by
  cases hp : s.port with
  | nil => exact .inl ⟨rfl, by simp [step, fetch, hp]⟩
  | cons x rest =>
    cases x with
    | reset c =>
      exact .inr (.inl ⟨c, rest, rfl, by simp [step, fetch, hp, applyReset, consume]⟩)
    | command w =>
      cases hd : decode w with
      | ok i =>
        exact .inr (.inr (.inl ⟨w, rest, i, rfl, hd, by simp [step, fetch, hp, hd, consume]⟩))
      | error r =>
        exact .inr (.inr (.inr ⟨w, rest, r, rfl, hd, by
          simp [step, fetch, hp, hd, consume, refuseWord]⟩))

end Sys2Proof.Machine
end

