-- ==== Sys2Proof/Tests/Slice0.lean ====
section
/-!
SUPPORT. Tests of the model against the spec's own words, examples and vectors, and one witness for
every statement that has hypotheses: a concrete state and operands that meet them together.
-/
namespace Sys2Proof.Tests
open Sys2Proof Sys2Proof.Machine

/-! ## Well-formedness: an ill-formed command for each check of 30_encoding.md R75 -/

theorem test_wf_refuses_len_0 : (Instr.bufInit 0#16).wellFormed = false := by decide
theorem test_wf_refuses_count_0 : (Instr.bufPut 0#16 0#8 0#32).wellFormed = false := by decide
theorem test_wf_refuses_count_33 : (Instr.bufPut 0#16 33#8 0#32).wellFormed = false := by decide
theorem test_wf_refuses_wide_data :
    (Instr.bufPut 0#16 16#8 0x10000#32).wellFormed = false := by decide
theorem test_wf_refuses_W_0 : (Instr.bufGetr 0#16 0#16 0#8).wellFormed = false := by decide
theorem test_wf_refuses_W_33 : (Instr.bufGetr 0#16 0#16 33#8).wellFormed = false := by decide
theorem test_wf_refuses_crc8_count_0 : (Instr.crc8Calc 0#16 0#16).wellFormed = false := by decide
theorem test_wf_refuses_isvar_261 : (Instr.opcIsvar 261#16).wellFormed = false := by decide
theorem test_wf_refuses_desc_261 : (Instr.opcDesc 261#16).wellFormed = false := by decide
theorem test_wf_refuses_seg_0 : (Instr.frmPayload 0#8).wellFormed = false := by decide
theorem test_wf_refuses_seg_3 : (Instr.frmPayload 3#8).wellFormed = false := by decide
theorem test_wf_refuses_sel_10 : (Instr.rdReg 10#8).wellFormed = false := by decide
theorem test_wf_accepts_bounds :
    (Instr.bufPut 0#16 32#8 0xFFFFFFFF#32).wellFormed = true
      ∧ (Instr.opcDesc 260#16).wellFormed = true ∧ (Instr.rdReg 9#8).wellFormed = true := by decide

/-! ## Decoding: one word for every command, written out from 30_encoding.md R71, R73, R74 -/

theorem test_decode_bufInit : decode 0x0100006000000000#64 = .ok (.bufInit 96#16) := by decide
theorem test_decode_bufPut :
    decode 0x0208001200000011#64 = .ok (.bufPut 0x12#16 8#8 0x11#32) := by decide
theorem test_decode_bitGet : decode 0x0300FFFF00000000#64 = .ok (.bitGet 0xFFFF#16) := by decide
theorem test_decode_bitSet : decode 0x0400012300000000#64 = .ok (.bitSet 0x123#16) := by decide
theorem test_decode_bitFlip : decode 0x0500000500000000#64 = .ok (.bitFlip 5#16) := by decide
theorem test_decode_bitNsb : decode 0x0600800000000000#64 = .ok (.bitNsb 0x8000#16) := by decide
theorem test_decode_bufGetr :
    decode 0x07100050005F0000#64 = .ok (.bufGetr 80#16 95#16 16#8) := by decide
theorem test_decode_crcCorr :
    decode 0x100112345678ABCD#64 = .ok (.crcCorr 1#8 0x1234#16 0x5678#16 0xABCD#16) := by decide
theorem test_decode_crc9Chk :
    decode 0x1102000300070000#64 = .ok (.crc9Chk 2#8 3#16 7#16) := by decide
theorem test_decode_crc8Calc :
    decode 0x1200000400480000#64 = .ok (.crc8Calc 4#16 72#16) := by decide
theorem test_decode_opcLookup :
    decode 0x20000000FFFFFFFF#64 = .ok (.opcLookup 0xFFFFFFFF#32) := by decide
theorem test_decode_opcIsvar : decode 0x2100010400000000#64 = .ok (.opcIsvar 260#16) := by decide
theorem test_decode_opcDesc : decode 0x2200004600000000#64 = .ok (.opcDesc 70#16) := by decide
theorem test_decode_frmLocate : decode 0x3000000000000000#64 = .ok .frmLocate := by decide
theorem test_decode_frmHassub : decode 0x3100000000000000#64 = .ok .frmHassub := by decide
theorem test_decode_frmGetsub : decode 0x3200000000000000#64 = .ok .frmGetsub := by decide
theorem test_decode_frmPayload : decode 0x3302000000000000#64 = .ok (.frmPayload 2#8) := by decide
theorem test_decode_rdReg : decode 0x4001000000000000#64 = .ok (.rdReg 1#8) := by decide

/-- Reserved fields at both ends and unassigned opcodes next to assigned ones (R76). -/
theorem test_decode_refuses :
    decode 0#64 = .error (.unassignedOpcode 0#8)
      ∧ decode 0x0800000000000000#64 = .error (.unassignedOpcode 8#8)
      ∧ decode 0x0500000500000001#64 = .error (.reservedField "BIT_FLIP")
      ∧ decode 0x0501000500000000#64 = .error (.reservedField "BIT_FLIP")
      ∧ decode 0x1200000400480001#64 = .error (.reservedField "CRC8_CALC")
      ∧ decode 0x2000000100000011#64 = .error (.reservedField "OPC_LOOKUP") := by decide

/-- The table's words read by the host's door. -/
theorem test_decodeTableWord :
    decodeTableWord 64 0x0500000500000000 = some (.bitFlip 5#16)
      ∧ decodeTableWord 64 0x0800000000000000 = none := by decide

theorem test_assemble_register_name :
    assembleLine "RD_REG SUBVIEW".toList = some (.rdReg 8#8)
      ∧ assembleLine "BUF_PUT 0, 8, 0x1F".toList = some (.bufPut 0#16 8#8 0x1F#32) := by decide

/-! ## A bench -/

/-- A state with `len` bits loaded, over the default configuration. -/
def bench (len : Half) (buf : Memory) : State :=
  { State.reset with cfgFault := false, cfgCause := 0#8, len := len, buf := buf }

/-- What a command answers: its status and its result. -/
def answer (i : Instr) (s : State) : Option (Status × Value) :=
  match exec i s with
  | .next t => some (t.status, t.result)
  | _ => none

/-- The state a command leaves. -/
def after (i : Instr) (s : State) : State :=
  match exec i s with
  | .next t => t
  | _ => s

/-- The cells of the bits that are 1 in the `n` low bits of `v`, at index `a` and up, MSB first. -/
def onesOf (a : Nat) : Nat → Nat → Memory
  | 0, _ => []
  | n + 1, v => (if v.testBit n then [(a, true)] else []) ++ onesOf (a + 1) n v

/-- A validated 288-bit buffer with a sync pattern at bits 132..179 (43_frame_sync.md R191). -/
def validated (pat : Nat) : State := { bench 288#16 (onesOf 132 48 pat) with verdict := .passed }

/-- A framed buffer of the class `j`. -/
def withFrame (j : BitVec 8) : State := { validated 0 with fvalid := true, fclass := j }

/-! ## One step, expected values from the rules' examples and 95_test_vectors.md -/

/-- 40_bit_buffer.md R100, the example. -/
theorem test_bufInit :
    answer (.bufInit 96#16) (bench 0#16 []) = some (.ok, 96#32)
      ∧ (after (.bufInit 96#16) (bench 8#16 [(3, true)])).buf = [] := by decide
theorem test_bufInit_past_cap :
    answer (.bufInit 289#16) (bench 0#16 []) = some (.illegalOperand, 0#32) := by decide
/-- 40_bit_buffer.md R102, the example. -/
theorem test_bufPut :
    (after (.bufPut 0#16 8#8 0x11#32) (bench 96#16 [(0, true)])).buf = [(3, true), (7, true)] := by
  decide
theorem test_bufPut_operand_first :
    answer (.bufPut 280#16 16#8 0x1FFFF#32) (bench 0#16 []) = some (.illegalOperand, 0#32) := by
  decide
theorem test_bitGet : answer (.bitGet 5#16) (bench 8#16 [(5, true)]) = some (.ok, 1#32) := by decide
/-- 60_exceptions.md R236. -/
theorem test_bitGet_past_len :
    let t := after (.bitGet 8#16) (bench 8#16 [])
    t.aborted = true ∧ t.faultCause = 1#8 ∧ t.faultInfo = 8#32 ∧ t.status = .indexError := by decide
theorem test_bitSet : (after (.bitSet 0#16) (bench 8#16 [])).buf = [(0, true)] := by decide
/-- 60_exceptions.md R241: the write phase is closed before the index is looked at. -/
theorem test_bitSet_after_validation :
    answer (.bitSet 300#16) (validated 0) = some (.stateError, 0#32) := by decide
theorem test_bitFlip :
    (after (.bitFlip 5#16) (bench 96#16 [])).buf = [(5, true)]
      ∧ (after (.bitFlip 5#16) (bench 96#16 [(5, true)])).buf = [] := by decide
/-- 40_bit_buffer.md R106, the example. -/
theorem test_bitNsb :
    answer (.bitNsb 0#16) (bench 16#16 [(3, true), (7, true)]) = some (.ok, 3#32)
      ∧ answer (.bitNsb 4#16) (bench 16#16 [(3, true), (7, true)]) = some (.ok, 7#32)
      ∧ answer (.bitNsb 8#16) (bench 16#16 [(3, true), (7, true)]) = some (.ok, 0xFFFFFFFF#32) := by
  decide
/-- 40_bit_buffer.md R107, the example. -/
theorem test_bufGetr :
    answer (.bufGetr 0#16 7#16 8#8) (bench 96#16 [(3, true), (7, true)]) = some (.ok, 0x11#32)
      ∧ answer (.bufGetr 0#16 16#16 16#8) (bench 96#16 []) = some (.rangeError, 0#32) := by decide
/-- One error of an all-zero codeword at bit 5 (41_crc_ecc.md R132, the example's result). -/
theorem test_crcCorr :
    answer (.crcCorr 0#8 0#16 80#16 0#16) (bench 96#16 [(5, true)]) = some (.ok, 0x00050002#32)
      ∧ (after (.crcCorr 0#8 0#16 80#16 0#16) (bench 96#16 [(5, true)])).buf = [] := by
  decide +kernel
/-- Two errors: FAILED, two more on the counter (41_crc_ecc.md R139 (c)). -/
theorem test_crcCorr_two_errors :
    let t := after (.crcCorr 0#8 0#16 80#16 0#16) (bench 96#16 [(5, true), (6, true)])
    t.result = 3#32 ∧ t.ccount = 2#32 ∧ t.verdict = .failed ∧ t.status = .ok := by decide +kernel
/-- The pair (0, 77) of protected positions passes (41_crc_ecc.md R146 (b)); with `CS = 7` position 77
is bit 86. -/
theorem test_crc9Chk :
    answer (.crc9Chk 0#8 0#16 7#16) (bench 144#16 [(0, true), (86, true)]) = some (.ok, 1#32) := by
  decide +kernel
theorem test_crc9Chk_checksum_error :
    let t := after (.crc9Chk 0#8 0#16 7#16) (bench 144#16 [(15, true)])
    t.result = 3#32 ∧ t.ccount = 0#32 ∧ t.buf = [(15, true)] := by decide +kernel
/-- The remainder of one 1 bit is `POLY8`, and of `0x80` it is 0x89 (41_crc_ecc.md R150, by hand:
`x^15 mod x^8+x^2+x+1`). -/
theorem test_crc8Calc :
    answer (.crc8Calc 7#16 1#16) (bench 8#16 [(7, true)]) = some (.ok, 0x07#32)
      ∧ answer (.crc8Calc 0#16 8#16) (bench 8#16 [(0, true)]) = some (.ok, 0x89#32) := by decide
/-- 42_opcode_classifier.md R174, the examples and corner cases. -/
theorem test_opcLookup :
    answer (.opcLookup 17#32) State.reset = some (.ok, 0x0011FFFF#32)
      ∧ answer (.opcLookup 70#32) State.reset = some (.ok, 0x00460009#32)
      ∧ answer (.opcLookup 60#32) State.reset = some (.ok, 0x0100FFFF#32) := by decide +kernel
theorem test_opcLookup_outside :
    answer (.opcLookup 0xFFFFFFFF#32) (bench 0#16 []) = some (.ok, 0x0104FFFF#32)
      ∧ answer (.opcLookup 256#32) (bench 0#16 []) = some (.ok, 0x0104FFFF#32)
      ∧ answer (.opcLookup 255#32) (bench 0#16 []) = some (.ok, 0x0103FFFF#32) := by decide
theorem test_opcIsvar :
    answer (.opcIsvar 17#16) (bench 0#16 []) = some (.ok, 1#32)
      ∧ answer (.opcIsvar 70#16) (bench 0#16 []) = some (.ok, 0#32)
      ∧ answer (.opcIsvar 60#16) (bench 0#16 []) = some (.illegalOperand, 0#32) := by decide
theorem test_opcDesc :
    answer (.opcDesc 70#16) (bench 0#16 []) = some (.ok, 0x00460009#32)
      ∧ answer (.opcDesc 256#16) (bench 0#16 []) = some (.ok, 0xFFFFFFFF#32) := by decide
/-- 43_frame_sync.md R193, the example. -/
theorem test_frmLocate :
    let t := after .frmLocate (validated 0xDFF57D75DF5D)
    t.result = 1#32 ∧ t.fvalid = true ∧ t.fclass = 1#8 ∧ t.subc = false := by decide
theorem test_frmLocate_no_match :
    answer .frmLocate (validated 0xDFF57D75DF5C) = some (.ok, 0xFFFFFFFF#32)
      ∧ answer .frmLocate (bench 288#16 []) = some (.stateError, 0#32) := by decide
theorem test_frmHassub :
    answer .frmHassub (withFrame 1#8) = some (.ok, 1#32)
      ∧ answer .frmHassub (withFrame 2#8) = some (.ok, 0#32) := by decide
/-- 43_frame_sync.md R197, the example. -/
theorem test_frmGetsub :
    let t := after .frmGetsub (withFrame 1#8)
    t.result = 0x00000018#32 ∧ t.subc = true ∧ t.subview = 0x00000018#32 := by decide
theorem test_frmGetsub_absent :
    answer .frmGetsub (withFrame 3#8) = some (.stateError, 0#32)
      ∧ (after .frmGetsub (withFrame 3#8)).aborted = false := by decide
/-- 43_frame_sync.md R198, the example; 60_exceptions.md R241. -/
theorem test_frmPayload :
    answer (.frmPayload 1#8) (withFrame 0#8) = some (.ok, 0x0018006C#32)
      ∧ answer (.frmPayload 2#8) (withFrame 0#8) = some (.ok, 0x00B4006C#32)
      ∧ answer (.frmPayload 3#8) (bench 0#16 []) = some (.illegalOperand, 0#32) := by decide
/-- 10_state.md R36, R37. -/
theorem test_rdReg :
    answer (.rdReg 3#8) (withFrame 0#8) = some (.ok, 0x5#32)
      ∧ answer (.rdReg 4#8) (bench 0#16 []) = some (.ok, 0xFFFFFFFF#32)
      ∧ answer (.rdReg 7#8) (bench 0#16 []) = some (.ok, 288#32) := by decide
/-- The step takes the host's word: `BUF_INIT 96` from reset (40_bit_buffer.md R100, the example). -/
theorem test_step :
    (match step (State.reset.withFetchWord 64 0x0100006000000000) with
      | .next t => (t.len, t.result, t.status, t.port)
      | _ => (0#16, 0#32, .ok, [])) = (96#16, 96#32, .ok, []) := by decide +kernel

/-! ## Witnesses: what meets the hypotheses of each statement, clause by clause -/

theorem witness_StepRunsDecodedCommand :
    ({ bench 8#16 [] with port := [.command 0x0500000500000000#64] } : State).port
        = .command 0x0500000500000000#64 :: []
      ∧ decode 0x0500000500000000#64 = .ok (.bitFlip 5#16) := ⟨rfl, by decide⟩

theorem witness_ResetInputGivesResetState :
    ({ withFrame 1#8 with port := [.reset defaultCfg, .command 0#64] } : State).port
        = .reset defaultCfg :: [.command 0#64] := rfl

theorem witness_BlockWaitsWithoutInput : (withFrame 1#8).port = [] := rfl

theorem witness_IllegalWordAnswersIllegalCommand :
    ({ withFrame 1#8 with port := [.command 0x3000000000000001#64] } : State).port
        = .command 0x3000000000000001#64 :: []
      ∧ decode 0x3000000000000001#64 = .error (.reservedField "FRM_LOCATE") := ⟨rfl, by decide⟩

theorem witness_EncodeOfDecodedWord :
    decode 0x10FFFFFFFFFFFFFF#64
      = .ok (.crcCorr 0xFF#8 0xFFFF#16 0xFFFF#16 0xFFFF#16) := by decide

theorem witness_IllegalEncodingsAreThose :
    unassignedOpc (wordOpc 0x4100000000000000#64).toNat
      ∧ assignedFormat (wordOpc 0x4000000000000001#64).toNat = some .d
      ∧ 0x4000000000000001#64 &&& formatMask .d &&& 0x00FFFFFFFFFFFFFF#64 ≠ 0#64 := by decide

theorem witness_TransportedBytesDecodeAsTheWord :
    decode 0x4009000000000000#64 = .ok (.rdReg 9#8)
      ∧ decode 0xFF00000000000000#64 = .error (.unassignedOpcode 0xFF#8) := by decide

theorem witness_LoadPutsTheValue :
    Writable (bench 40#16 []) ∧ (7#16).toNat + 33 ≤ (bench 40#16 []).len.toNat
      ∧ expandPseudo (.load 7#16 33 (2 ^ 33 - 1))
          = some [.bufPut 7#16 32#8 0xFFFFFFFF#32, .bufPut 39#16 1#8 1#32] := by decide

theorem witness_PerCallFaultsChangeOnlyTheResponse :
    exec .frmLocate (bench 0#16 []) = .next (after .frmLocate (bench 0#16 []))
      ∧ (after .frmLocate (bench 0#16 [])).status = .stateError
      ∧ exec (.rdReg 10#8) (bench 0#16 []) = .next (after (.rdReg 10#8) (bench 0#16 []))
      ∧ (after (.rdReg 10#8) (bench 0#16 [])).status = .illegalOperand := ⟨rfl, rfl, rfl, rfl⟩

theorem witness_FrameFatalFaultsRecordThemselves :
    exec (.bitGet 8#16) (bench 8#16 []) = .next (after (.bitGet 8#16) (bench 8#16 []))
      ∧ (after (.bitGet 8#16) (bench 8#16 [])).status = .indexError
      ∧ exec (.crc8Calc 8#16 1#16) (bench 8#16 []) = .next (after (.crc8Calc 8#16 1#16) (bench 8#16 []))
      ∧ (after (.crc8Calc 8#16 1#16) (bench 8#16 [])).status = .rangeError :=
  ⟨rfl, rfl, rfl, rfl⟩

theorem witness_ConfigFaultRefusesAllButReadReg :
    ({ bench 0#16 [] with cfgFault := true } : State).cfgFault = true
      ∧ (∀ sel, Instr.frmLocate ≠ .rdReg sel) ∧ (9#8).toNat ≤ 9 :=
  ⟨rfl, (fun _ h => nomatch h), by decide⟩

theorem witness_AbortedContextRefusesFrameCommands :
    let s : State := { bench 8#16 [] with aborted := true }
    s.cfgFault = false ∧ s.aborted = true
      ∧ operandsLegal s.cfg (.bitFlip 500#16) ∧ frameDependent (.bitFlip 500#16) = true
      ∧ operandsLegal s.cfg (.bufInit 288#16) ∧ frameDependent (.bufInit 288#16) = false :=
  ⟨rfl, rfl, trivial, rfl, ⟨by decide, by decide⟩, rfl⟩

theorem witness_IllegalOperandsAreAnswered :
    (bench 0#16 []).cfgFault = false
      ∧ ¬ operandsLegal (bench 0#16 []).cfg (.bufInit 289#16)
      ∧ (Instr.rdReg 10#8).wellFormed = false
      ∧ operandsLegal (bench 0#16 []).cfg (.rdReg 9#8) :=
  ⟨rfl, fun h => absurd h.2 (by decide), by decide, by change (9#8).toNat ≤ 9; decide⟩

theorem witness_WrongStateIsAnswered :
    (bench 0#16 []).cfgFault = false ∧ (bench 0#16 []).aborted = false
      ∧ operandsLegal (bench 0#16 []).cfg (.bitNsb 0#16) ∧ frameDependent (.bitNsb 0#16) = true
      ∧ (bench 0#16 []).len = 0#16
      ∧ (validated 0).verdict ≠ .unset ∧ (withFrame 1#8).fvalid = true
      ∧ (validated 0).fvalid = false
      ∧ (withFrame 3#8).cfg.syncTable[(withFrame 3#8).fclass.toNat]?
          = some (defaultClass 0xD5D7F77FD757 false)
      ∧ (defaultClass 0xD5D7F77FD757 false).hasSub = false :=
  ⟨rfl, rfl, trivial, rfl, rfl, by decide, rfl, rfl, rfl, rfl⟩

/-- A class with one segment, for the last clause of the same statement. -/
theorem witness_WrongStateIsAnswered_one_segment :
    let e : SyncEntry := { defaultClass 0 true with p2Len := 0 }
    let s : State := { withFrame 0#8 with cfg := { defaultCfg with syncTable := [e] } }
    s.cfgFault = false ∧ s.aborted = false ∧ s.cfg.syncTable[s.fclass.toNat]? = some e
      ∧ e.p2Len = 0 := ⟨rfl, rfl, rfl, rfl⟩

theorem witness_VerdictIsTerminal :
    (validated 0).verdict ≠ .unset ∧ ∀ len, Instr.bitFlip 0#16 ≠ .bufInit len :=
  ⟨by decide, fun _ h => nomatch h⟩

/-- A framed buffer of class 1 (BS_DATA), with the flags reset gives. -/
def framedBench : State :=
  { State.resetWith defaultCfg with
    len := 288#16, verdict := .passed, fvalid := true, fclass := 1#8 }

theorem framedBench_cfgFault : framedBench.cfgFault = false := by decide +kernel

theorem framedBench_inv : Inv framedBench where
  bufCanonical := by decide
  bufBelowLen := by decide
  lenWithinCap := by decide
  causeOfCheck := by decide +kernel
  faultOfCheck := by decide +kernel
  faultyIsEmpty := by rw [framedBench_cfgFault]; intro h; cases h
  emptyContext := by decide
  frameValidated := by decide
  frameFits := by decide
  noFrameNoClass := by decide
  cacheOfFrame := by decide
  cacheFresh := by decide
  cacheEmpty := by decide
  countBound := by decide
  countUnset := by decide
  abortedIffCause := by decide
  causeCodes := by decide
  infoClear := by decide
  faultResult := by decide

theorem witness_FrameIsImmutable :
    Inv framedBench ∧ framedBench.fvalid = true ∧ (∀ len, Instr.frmLocate ≠ .bufInit len)
      ∧ framedBench.aborted = false :=
  ⟨framedBench_inv, rfl, (fun _ h => nomatch h), rfl⟩

/-- Every field of the statement differs after some command. -/
theorem witness_OnlyTheNamedCommandsWrite :
    (after (.bufInit 9#16) (bench 8#16 [])).len ≠ 8#16
      ∧ (after (.bitSet 7#16) (bench 8#16 [])).buf ≠ []
      ∧ (after (.crcCorr 0#8 0#16 80#16 0#16) (bench 96#16 [(5, true)])).ccount ≠ 0#32
      ∧ (after (.crc9Chk 0#8 0#16 0#16) (bench 144#16 [])).verdict ≠ .unset
      ∧ (after .frmLocate (validated 0xDFF57D75DF5D)).fclass ≠ 0#8
      ∧ (after .frmGetsub (withFrame 1#8)).subc ≠ false
      ∧ (after .frmGetsub (withFrame 1#8)).subview ≠ 0#32
      ∧ (after (.bitGet 8#16) (bench 8#16 [])).aborted ≠ false := by decide +kernel

theorem witness_ReadOnlyCommandsRepeat :
    readOnly (.bitGet 7#16) = true ∧ (after (.bitGet 7#16) (bench 8#16 [])).status = .ok := by decide

theorem witness_StepKeepsInvariant :
    Inv framedBench ∧ step framedBench = .next framedBench := ⟨framedBench_inv, rfl⟩

/-- A small legal configuration. -/
def smallCfg : Cfg :=
  { defaultCfg with
    corrTables := [⟨2, 3, [3, 5]⟩], crc9Tables := [⟨2, [3, 5]⟩], syncTable := [defaultClass 1 true] }

/-- Every code of 70_reset_and_hazards.md R273 is some configuration's, the count cases of codes 1 and
4 and both sources of code 9 included. -/
theorem witness_ConfigCauseNamesTheFirstFailure :
    checkCfg smallCfg = 0 ∧ checkCfg { smallCfg with corrTables := [⟨2, 3, [3]⟩] } = 1
      ∧ checkCfg { smallCfg with corrTables := [] } = 1
      ∧ checkCfg { smallCfg with corrTables := [⟨2, 3, [3, 8]⟩] } = 2
      ∧ checkCfg { smallCfg with corrTables := [⟨2, 3, [3, 3]⟩] } = 3
      ∧ checkCfg { smallCfg with crc9Tables := [⟨0, []⟩] } = 4
      ∧ checkCfg { smallCfg with crc9Tables := [] } = 4
      ∧ checkCfg { smallCfg with crc9Tables := [⟨2, [3, 512]⟩] } = 5
      ∧ checkCfg { smallCfg with crc9Tables := [⟨2, [3, 3]⟩] } = 6
      ∧ checkCfg { smallCfg with opcDef := [⟨256, .var⟩] } = 7
      ∧ checkCfg { smallCfg with opcDef := [⟨17, .var⟩, ⟨17, .fixed 1⟩] } = 8
      ∧ checkCfg { smallCfg with opcDef := [⟨17, .fixed 0xFFFF⟩] } = 9
      ∧ checkCfg { smallCfg with univLen := .fixed 0xFFFF } = 9
      ∧ checkCfg { smallCfg with syncTable := [] } = 10
      ∧ checkCfg { smallCfg with syncTable := [defaultClass 1 true, defaultClass 1 false] } = 11
      ∧ checkCfg { smallCfg with cap := 65536 } = 12
      ∧ checkCfg { smallCfg with crc9FailInc := 1 } = 13 := by decide

/-- The order of 70_reset_and_hazards.md R272: the first table decides before the second is tested, one
entry's code before its length, the first entry before the second. -/
theorem test_checkCfg_order :
    checkCfg { smallCfg with corrTables := [⟨2, 3, [3, 3]⟩, ⟨2, 3, [3, 8]⟩] } = 3
      ∧ checkCfg { smallCfg with crc9Tables := [⟨2, [3, 3]⟩, ⟨2, [3]⟩] } = 6
      ∧ checkCfg { smallCfg with opcDef := [⟨256, .fixed 0xFFFF⟩] } = 7
      ∧ checkCfg { smallCfg with opcDef := [⟨17, .fixed 0xFFFF⟩, ⟨256, .var⟩] } = 9 := by decide

theorem witness_BufInitStartsAContext :
    ({ bench 8#16 [(0, true)] with aborted := true } : State).cfgFault = false
      ∧ 1 ≤ (1#16).toNat ∧ (1#16).toNat ≤ (bench 8#16 []).cfg.cap
      ∧ (288#16).toNat ≤ (bench 8#16 []).cfg.cap := by decide

theorem witness_BufPutWritesItsSpan :
    Writable (bench 40#16 []) ∧ 1 ≤ (32#8).toNat ∧ (32#8).toNat ≤ 32
      ∧ (0xFFFFFFFF#32).toNat < 2 ^ (32#8).toNat
      ∧ (8#16).toNat + (32#8).toNat ≤ (bench 40#16 []).len.toNat
      ∧ Memory.wf (bench 40#16 []).buf := by decide

theorem witness_BitGetReturnsTheBit :
    Ready (bench 8#16 []) ∧ (7#16).toNat < (bench 8#16 []).len.toNat := by decide

theorem witness_BitSetAndFlipWriteOneBit :
    Writable (bench 8#16 []) ∧ (7#16).toNat < (bench 8#16 []).len.toNat := by decide

theorem witness_FlipsCancelAndSetIsIdempotent :
    Writable (bench 8#16 [(7, true)]) ∧ Memory.wf (bench 8#16 [(7, true)]).buf
      ∧ (7#16).toNat < (bench 8#16 [(7, true)]).len.toNat := by decide

theorem witness_NextSetBitIsTheLeast :
    Ready (bench 8#16 [(7, true)]) ∧ (7#16).toNat ≤ 7 ∧ 7 < (bench 8#16 [(7, true)]).len.toNat
      ∧ Memory.read (bench 8#16 [(7, true)]).buf 7 = true
      ∧ ¬ ((8#16).toNat < (bench 8#16 [(7, true)]).len.toNat) := by decide

theorem witness_BufGetrReturnsTheRange :
    Ready (bench 40#16 []) ∧ 1 ≤ (32#8).toNat ∧ (32#8).toNat ≤ 32 ∧ (8#16).toNat ≤ (39#16).toNat
      ∧ (39#16).toNat < (bench 40#16 []).len.toNat
      ∧ (39#16).toNat - (8#16).toNat + 1 ≤ (32#8).toNat := by decide

theorem witness_MixedWidthReadsAgree :
    Ready (bench 40#16 []) ∧ 1 ≤ (32#8).toNat ∧ (32#8).toNat ≤ 32 ∧ (8#16).toNat ≤ (39#16).toNat
      ∧ (39#16).toNat ≤ (39#16).toNat ∧ (39#16).toNat < (bench 40#16 []).len.toNat
      ∧ (39#16).toNat - (8#16).toNat + 1 ≤ (32#8).toNat := by decide

theorem witness_IndexErrorsAbort :
    Ready (bench 8#16 []) ∧ (bench 8#16 []).len.toNat ≤ (8#16).toNat
      ∧ (bench 8#16 []).verdict = .unset := by decide

theorem witness_RangeErrorsAbort :
    let s := bench 8#16 []
    Ready s ∧ s.verdict = .unset
      ∧ operandsLegal s.cfg (.bufPut 8#16 1#8 0#32) ∧ s.len.toNat < (8#16).toNat + (1#8).toNat
      ∧ operandsLegal s.cfg (.bufGetr 1#16 0#16 1#8) ∧ (0#16).toNat < (1#16).toNat
      ∧ s.len.toNat ≤ (8#16).toNat ∧ (0#16).toNat + (1#8).toNat ≤ (1#16).toNat
      ∧ operandsLegal s.cfg (.crc8Calc 8#16 1#16)
      ∧ s.cfg.corrTables[(0#8).toNat]? = some ccitt80 ∧ (0xFFFF#16).toNat < 2 ^ ccitt80.width
      ∧ ¬ corrRegionFits ccitt80 s 0#16 80#16
      ∧ s.cfg.crc9Tables[(0#8).toNat]? = some crc9Default
      ∧ ¬ crc9RegionFits crc9Default s 0#16 0#16 :=
  ⟨by decide, rfl, ⟨by decide, by decide, by decide⟩, by decide, ⟨by decide, by decide⟩, by decide,
    by decide, by decide, by change 1 ≤ (1#16).toNat; decide, rfl, by decide, by decide, rfl,
    by decide⟩

theorem witness_SparseIterationEqualsDenseScan : 0 + 8 ≤ 8 := by decide

theorem witness_SyndromeSumIsTheShiftRegister : 1 ≤ 1 := by decide

theorem ccitt80_legal : corrTableLegal ccitt80 := by decide +kernel

theorem crc9Default_legal : crc9TableLegal crc9Default := by decide +kernel

/-- The three residuals of the statement's three clauses, at a region that just fits. -/
theorem witness_CrcCorrDecidesOnTheResidual :
    Writable (bench 96#16 []) ∧ (bench 96#16 []).cfg.corrTables[(0#8).toNat]? = some ccitt80
      ∧ corrTableLegal ccitt80 ∧ (0#16).toNat < 2 ^ ccitt80.width
      ∧ corrRegionFits ccitt80 (bench 96#16 []) 0#16 80#16
      ∧ denseResidual ccitt80 [] 0 80 0 = 0 ∧ denseResidual ccitt80 [] 0 80 0xFFFF = 2 ^ 16 - 1
      ∧ ccitt80.syn[79]? = some (denseResidual ccitt80 [(79, true)] 0 80 0)
      ∧ denseResidual ccitt80 [(78, true), (79, true)] 0 80 0 ∉ ccitt80.syn :=
  ⟨by decide, rfl, ccitt80_legal, by decide, by decide, by decide +kernel, by decide +kernel,
    by decide +kernel, by decide +kernel⟩

theorem witness_SingleErrorIsCorrected :
    Writable (bench 96#16 []) ∧ Memory.wf (bench 96#16 []).buf
      ∧ (bench 96#16 []).cfg.corrTables[(0#8).toNat]? = some ccitt80 ∧ corrTableLegal ccitt80
      ∧ (∀ e ∈ ccitt80.syn, e ≠ 0 ∧ e ≠ 2 ^ ccitt80.width - 1)
      ∧ (0#16).toNat < 2 ^ ccitt80.width ∧ corrRegionFits ccitt80 (bench 96#16 []) 0#16 80#16
      ∧ denseResidual ccitt80 (bench 96#16 []).buf (0#16).toNat (80#16).toNat (0#16).toNat = 0
      ∧ 79 < ccitt80.len :=
  ⟨by decide, by decide, rfl, ccitt80_legal, by decide +kernel, by decide, by decide,
    by decide +kernel, by decide⟩

theorem witness_DoubleErrorFailsOverTheDefaultTable :
    Writable (bench 96#16 []) ∧ (bench 96#16 []).cfg.corrTables[(0#8).toNat]? = some ccitt80
      ∧ corrRegionFits ccitt80 (bench 96#16 []) 0#16 80#16
      ∧ denseResidual ccitt80 (bench 96#16 []).buf (0#16).toNat (80#16).toNat (0#16).toNat = 0
      ∧ 0 < 79 ∧ 79 < 80 :=
  ⟨by decide, rfl, by decide, by decide +kernel, by decide, by decide⟩

theorem witness_Crc9DecidesOnTheResidual :
    Writable (bench 144#16 []) ∧ (bench 144#16 []).cfg.crc9Tables[(0#8).toNat]? = some crc9Default
      ∧ crc9TableLegal crc9Default ∧ crc9RegionFits crc9Default (bench 144#16 []) 0#16 135#16
      ∧ denseResidual9 crc9Default [] 0 135 = 0
      ∧ denseResidual9 crc9Default [(0, true)] 0 135 ∉ [0, 0x1FF] :=
  ⟨by decide, rfl, crc9Default_legal, by decide, by decide +kernel, by decide +kernel⟩

theorem witness_Crc9SingleErrorFails :
    Writable (bench 144#16 []) ∧ (bench 144#16 []).cfg.crc9Tables[(0#8).toNat]? = some crc9Default
      ∧ crc9RegionFits crc9Default (bench 144#16 []) 0#16 0#16
      ∧ denseResidual9 crc9Default (bench 144#16 []).buf (0#16).toNat (0#16).toNat = 0
      ∧ (0#16).toNat ≤ (143#16).toNat ∧ (143#16).toNat < (0#16).toNat + 144 :=
  ⟨by decide, rfl, by decide, by decide +kernel, by decide, by decide⟩

/-- A clean block of the other polarity: the checksum field is all ones. -/
theorem witness_Crc9SingleErrorFails_all_ones :
    let s := bench 144#16 (onesOf 135 9 0x1FF)
    Writable s ∧ crc9RegionFits crc9Default s 0#16 135#16
      ∧ denseResidual9 crc9Default s.buf (0#16).toNat (135#16).toNat = 0x1FF
      ∧ (0#16).toNat ≤ (0#16).toNat ∧ (0#16).toNat < (0#16).toNat + 144 :=
  ⟨by decide, by decide, by decide +kernel, by decide, by decide⟩

theorem witness_Crc8IsTheShiftRegister :
    Ready (bench 8#16 []) ∧ 1 ≤ (8#16).toNat
      ∧ (0#16).toNat + (8#16).toNat ≤ (bench 8#16 []).len.toNat := by decide

theorem witness_Crc8OfSpanAndRemainderIsZero :
    Ready (bench 9#16 []) ∧ 1 ≤ (1#16).toNat
      ∧ (0#16).toNat + (1#16).toNat + 8 ≤ (bench 9#16 []).len.toNat
      ∧ answer (.crc8Calc 0#16 1#16) (bench 9#16 []) = some (.ok, 0#32)
      ∧ rangeNat (bench 9#16 []).buf ((0#16).toNat + (1#16).toNat) 8 = (0#32).toNat := by decide

theorem witness_OpcLookupClassifies :
    let s := bench 0#16 []
    s.cfgFault = false ∧ opcCodesDistinct s.cfg
      ∧ (⟨70, .fixed 9⟩ : OpcDef) ∈ s.cfg.opcDef ∧ ((70 : Nat) : Int) = (70#32).toInt
      ∧ (∀ e ∈ s.cfg.opcDef, (e.code : Int) ≠ (63#32).toInt)
      ∧ (0, PayLen.var) ∈ [(0, s.cfg.fbLen0), (1, s.cfg.fbLen1), (2, s.cfg.fbLen2), (3, s.cfg.fbLen3)]
      ∧ 64 * ((0 : Nat) : Int) ≤ (63#32).toInt ∧ (63#32).toInt ≤ 64 * ((0 : Nat) : Int) + 63
      ∧ (0x80000000#32).toInt < 0 ∧ 255 < (256#32).toInt := by decide

theorem witness_DescriptorAttributes :
    let s := bench 0#16 []
    s.cfgFault = false ∧ opcCodesDistinct s.cfg
      ∧ (∃ e ∈ s.cfg.opcDef, e.code = (70#16).toNat ∧ e.length = .fixed 9)
      ∧ ((260#16).toNat, PayLen.var) ∈ [(256, s.cfg.fbLen0), (257, s.cfg.fbLen1),
          (258, s.cfg.fbLen2), (259, s.cfg.fbLen3), (260, s.cfg.univLen)]
      ∧ ¬ namesDescriptor s.cfg 261#16 ∧ ¬ namesDescriptor s.cfg 60#16 := by decide

theorem witness_OpcLookupIsTotalAndRoundTrips :
    let s := bench 0#16 []
    s.cfgFault = false ∧ (0xFFFFFFFF#32).toInt < 0 ∧ 0 ≤ (255#32).toInt ∧ (255#32).toInt ≤ 255
      ∧ 70 ≤ 255 ∧ 70 ∈ s.cfg.opcDef.map (fun e => e.code) := by decide

theorem witness_LocateTakesTheFirstMatch :
    let s := validated 0xDFF57D75DF5D
    s.cfgFault = false ∧ s.aborted = false ∧ s.len ≠ 0#16 ∧ s.verdict = .passed ∧ s.fvalid = false
      ∧ s.cfg.syncTable[1]? = some (defaultClass 0xDFF57D75DF5D true)
      ∧ classMatches s (defaultClass 0xDFF57D75DF5D true)
      ∧ ¬ classMatches s (defaultClass 0x755FD7DF75F7 true)
      ∧ (∀ e ∈ (validated 0).cfg.syncTable, ¬ classMatches (validated 0) e)
      ∧ (bench 0#16 []).len = 0#16 :=
  ⟨rfl, rfl, by decide, rfl, rfl, rfl, by decide, by decide, by decide +kernel, rfl⟩

theorem witness_FrameQueriesReturnTheClass :
    Framed (withFrame 1#8)
      ∧ (withFrame 1#8).cfg.syncTable[(withFrame 1#8).fclass.toNat]?
          = some (defaultClass 0xDFF57D75DF5D true)
      ∧ (defaultClass 0xDFF57D75DF5D true).hasSub = true ∧ (withFrame 1#8).subc = false
      ∧ ({ withFrame 1#8 with subc := true } : State).subc = true
      ∧ (defaultClass 0xDFF57D75DF5D true).p2Len ≠ 0 :=
  ⟨by decide, rfl, rfl, rfl, rfl, by decide⟩

theorem witness_GetsubAlwaysReturnsTheView :
    Inv framedBench ∧ Framed framedBench
      ∧ framedBench.cfg.syncTable[framedBench.fclass.toNat]?
          = some (defaultClass 0xDFF57D75DF5D true)
      ∧ (defaultClass 0xDFF57D75DF5D true).hasSub = true :=
  ⟨framedBench_inv, ⟨⟨framedBench_cfgFault, rfl, by change (288#16 : Half) ≠ 0#16; decide⟩, rfl⟩,
    rfl, rfl⟩

theorem witness_ReadRegReturnsEachRegister :
    5 ≤ 5 ∧ 10 ≤ (10#8).toNat := by decide

theorem witness_ContextStateRefusals :
    Inv framedBench ∧ framedBench.cfgFault = false
      ∧ operandsLegal framedBench.cfg (.bitFlip 288#16)
      ∧ refusedIn (contextState framedBench) (.bitFlip 288#16) = some .stateError :=
  ⟨framedBench_inv, framedBench_cfgFault, trivial, by decide⟩

theorem witness_ContextStateMoves : Inv framedBench := framedBench_inv

theorem witness_BitsPastLenAreUnobservable :
    ∀ a < (bench 8#16 [(7, true)]).len.toNat,
      Memory.read [(7, true), (8, true)] a = Memory.read (bench 8#16 [(7, true)]).buf a := by decide

end Sys2Proof.Tests
end

/-!
SUPPORT. Every command in one form: the gate it hands to the check sequence and the state it leaves
when no check raises (60_exceptions.md R240). `exec_eq_runCommand` ties both to `exec`, so that
later proofs split on what the check sequence answers, not on the commands' own definitions.
-/
namespace Sys2Proof.Machine

/-! ### The gate and the effect of a command -/

/-- The gate each command fills in for the check sequence (60_exceptions.md R240). -/
def gateOf (s : State) : Instr → Gate
  | .bufInit len => freeGate (lenLegal s.cfg len)
  | .bufPut start count data =>
    frameGate (putLegal count data) (writePhase s)
      (rangeCheck (s.len.toNat < start.toNat + count.toNat) start)
  | .bitGet i => frameGate true (loaded s) (indexCheck s i)
  | .bitSet i => frameGate true (writePhase s) (indexCheck s i)
  | .bitFlip i => frameGate true (writePhase s) (indexCheck s i)
  | .bitNsb _ => frameGate true (loaded s) none
  | .bufGetr start stop w =>
    frameGate (widthLegal w) (loaded s) (rangeCheck (getrBad s start stop w) start)
  | .crcCorr t ms cs seed =>
    (s.cfg.corrTables[t.toNat]?).elim (frameGate false (writePhase s) none) fun T =>
      frameGate (seedLegal T seed) (writePhase s)
        (rangeCheck (corrBad T s.len.toNat ms.toNat cs.toNat) ms)
  | .crc9Chk t ms cs =>
    (s.cfg.crc9Tables[t.toNat]?).elim (frameGate false (writePhase s) none) fun U =>
      frameGate true (writePhase s) (rangeCheck (crc9Bad U s.len.toNat ms.toNat cs.toNat) ms)
  | .crc8Calc start count =>
    frameGate (countLegal count) (loaded s)
      (rangeCheck (s.len.toNat < start.toNat + count.toNat) start)
  | .opcLookup _ => freeGate true
  | .opcIsvar id => freeGate (descriptorOf s.cfg id).isSome
  | .opcDesc id => freeGate (descriptorOf s.cfg id).isSome
  | .frmLocate => frameGate true (locatable s) none
  | .frmHassub => frameGate true (framed s) none
  | .frmGetsub => frameGate true (framed s && (currentClass s).hasSub) none
  | .frmPayload seg =>
    frameGate (segLegal seg)
      (framed s && !(seg.toNat == 2 && (currentClass s).p2Len == 0)) none
  | .rdReg sel => readGate (regOf sel).isSome

/-- The state a command leaves when no check raises. -/
def effectOf (s : State) : Instr → State
  | .bufInit len => (s.newContext len).respond .ok (len.setWidth 32)
  | .bufPut start count data =>
    (s.withBuf (putBits data count.toNat start.toNat s.buf)).respond .ok 0#32
  | .bitGet i => s.respond .ok ((BitVec.ofBool (Memory.read s.buf i.toNat)).setWidth 32)
  | .bitSet i => (s.withBuf (Memory.write s.buf i.toNat true)).respond .ok 0#32
  | .bitFlip i => (s.withBuf (flipBit s.buf i.toNat)).respond .ok 0#32
  | .bitNsb start => s.respond .ok (nsbResult (nsb s.buf s.len.toNat start.toNat))
  | .bufGetr start stop _ =>
    s.respond .ok (BitVec.ofNat 32 (rangeNat s.buf start.toNat (stop.toNat - start.toNat + 1)))
  | .crcCorr t ms cs seed =>
    (s.cfg.corrTables[t.toNat]?).elim s fun T => corrEffect T ms cs seed s
  | .crc9Chk t ms cs => (s.cfg.crc9Tables[t.toNat]?).elim s fun U => crc9Effect U ms cs s
  | .crc8Calc start count =>
    s.respond .ok ((crc8Run s.cfg.poly8 s.buf count.toNat start.toNat 0#8).setWidth 32)
  | .opcLookup value =>
    let d := classify s.cfg (signedOperand value)
    s.respond .ok (pair (descriptorId d) (lenField (descriptorLen s.cfg d)))
  | .opcIsvar id =>
    (descriptorOf s.cfg id).elim s fun d => s.respond .ok (isVarResult (descriptorLen s.cfg d))
  | .opcDesc id =>
    (descriptorOf s.cfg id).elim s fun d =>
      s.respond .ok (pair (codeField d) (lenField (descriptorLen s.cfg d)))
  | .frmLocate => locateEffect s
  | .frmHassub => s.respond .ok ((BitVec.ofBool (currentClass s).hasSub).setWidth 32)
  | .frmGetsub => getsubEffect s
  | .frmPayload seg => s.respond .ok (payloadBounds (currentClass s) seg)
  | .rdReg sel => (regOf sel).elim s fun r => s.respond .ok (readReg s r)

/-- Every command is the check sequence on its gate and its effect. -/
theorem exec_eq_runCommand (i : Instr) (s : State) :
    exec i s = runCommand (gateOf s i) (fun _ => effectOf s i) s := by
  cases i with
  | crcCorr t ms cs seed =>
    simp only [exec, execCrcCorr, gateOf, effectOf]
    cases s.cfg.corrTables[t.toNat]? <;> rfl
  | crc9Chk t ms cs =>
    simp only [exec, execCrc9Chk, gateOf, effectOf]
    cases s.cfg.crc9Tables[t.toNat]? <;> rfl
  | opcIsvar id =>
    simp only [exec, execOpcIsvar, gateOf, effectOf]
    cases descriptorOf s.cfg id <;> rfl
  | opcDesc id =>
    simp only [exec, execOpcDesc, gateOf, effectOf]
    cases descriptorOf s.cfg id <;> rfl
  | rdReg sel =>
    simp only [exec, execRdReg, gateOf, effectOf]
    cases regOf sel <;> rfl
  | _ => rfl

/-- Every command completes: with the fault of the first check that raises, or with its effect
(60_exceptions.md R251). -/
theorem exec_cases (i : Instr) (s : State) :
    (∃ r, firstRaised (gateOf s i) s = some r ∧ exec i s = .next (s.raise r))
      ∨ (firstRaised (gateOf s i) s = none ∧ exec i s = .next (effectOf s i)) := by
  rw [exec_eq_runCommand]
  exact runCommand_cases _ _ s

/-! ### What an open gate says -/

theorem firstRaised_freeGate_eq_none (legal : Bool) (s : State) :
    firstRaised (freeGate legal) s = none ↔ s.cfgFault = false ∧ legal = true := by
  simp [firstRaised_eq_none, freeGate]

theorem firstRaised_readGate_eq_none (legal : Bool) (s : State) :
    firstRaised (readGate legal) s = none ↔ legal = true := by
  simp [firstRaised_eq_none, readGate]

theorem firstRaised_frameGate_eq_none (legal stateOk : Bool) (bounds : Option Raised) (s : State) :
    firstRaised (frameGate legal stateOk bounds) s = none ↔
      s.cfgFault = false ∧ legal = true ∧ s.aborted = false ∧ stateOk = true ∧ bounds = none := by
  simp [firstRaised_eq_none, frameGate]

theorem loaded_eq_true (s : State) : loaded s = true ↔ s.len ≠ 0#16 := by simp [loaded]

theorem writePhase_eq_true (s : State) :
    writePhase s = true ↔ s.len ≠ 0#16 ∧ s.verdict = .unset := by
  simp [writePhase, loaded_eq_true]

theorem locatable_eq_true (s : State) :
    locatable s = true ↔
      s.len ≠ 0#16 ∧ (s.verdict = .passed ∨ s.verdict = .corrected) ∧ s.fvalid = false := by
  simp [locatable, loaded_eq_true, and_assoc]

theorem framed_eq_true (s : State) : framed s = true ↔ s.len ≠ 0#16 ∧ s.fvalid = true := by
  simp [framed, loaded_eq_true]

/-- A ready state has a buffer loaded. -/
theorem Ready.loaded {s : State} (h : Ready s) : s.len ≠ 0#16 := h.2.2

/-- A write-phase command runs only in a writable state, with legal operands in bounds. -/
theorem writable_of_frameGate {legal : Bool} {bounds : Option Raised} {s : State}
    (h : firstRaised (frameGate legal (writePhase s) bounds) s = none) :
    Writable s ∧ legal = true ∧ bounds = none := by
  obtain ⟨hcfg, hlegal, habort, hstate, hbounds⟩ := (firstRaised_frameGate_eq_none _ _ _ s).mp h
  obtain ⟨hlen, hverdict⟩ := (writePhase_eq_true s).mp hstate
  exact ⟨⟨⟨hcfg, habort, hlen⟩, hverdict⟩, hlegal, hbounds⟩

/-- A frame-dependent command passes its state check only over a loaded buffer
(10_state.md R24). -/
theorem loaded_of_stateOk {i : Instr} {s : State} (hi : frameDependent i = true)
    (h : (gateOf s i).stateOk = true) : s.len ≠ 0#16 := by
  cases i with
  | bufInit | opcLookup | opcIsvar | opcDesc | rdReg => cases hi
  | bufPut | bitSet | bitFlip => exact ((writePhase_eq_true s).mp h).1
  | bitGet | bitNsb | bufGetr | crc8Calc => exact (loaded_eq_true s).mp h
  | crcCorr t =>
    simp only [gateOf] at h
    cases hT : s.cfg.corrTables[t.toNat]? <;> rw [hT] at h <;>
      exact ((writePhase_eq_true s).mp h).1
  | crc9Chk t =>
    simp only [gateOf] at h
    cases hU : s.cfg.crc9Tables[t.toNat]? <;> rw [hU] at h <;>
      exact ((writePhase_eq_true s).mp h).1
  | frmLocate => exact ((locatable_eq_true s).mp h).1
  | frmHassub => exact ((framed_eq_true s).mp h).1
  | frmGetsub | frmPayload =>
    exact ((framed_eq_true s).mp (Bool.and_eq_true_iff.mp h).1).1

/-- Only a frame-dependent command has a bounds check (60_exceptions.md R236, R237). -/
theorem bounds_of_not_frameDependent {i : Instr} {s : State} (hi : frameDependent i = false) :
    (gateOf s i).bounds = none := by
  cases i with
  | bufInit | opcLookup | opcIsvar | opcDesc | rdReg => rfl
  | _ => cases hi

/-- The two faults that abort the frame context (60_exceptions.md R236). -/
def frameFatal : Raised → Bool
  | .indexError _ => true
  | .rangeError _ => true
  | _ => false

/-- A frame-fatal fault is raised only over a loaded buffer. -/
theorem loaded_of_frameFatal {i : Instr} {s : State} {r : Raised}
    (h : firstRaised (gateOf s i) s = some r) (hr : frameFatal r = true) : s.len ≠ 0#16 := by
  rcases firstRaised_eq_some h with ⟨rfl, -⟩ | ⟨rfl, -⟩ | ⟨rfl, -⟩ | ⟨rfl, -⟩ | ⟨hb, hstate, -⟩
  · cases hr
  · cases hr
  · cases hr
  · cases hr
  · cases hi : frameDependent i with
    | true => exact loaded_of_stateOk hi hstate
    | false => rw [bounds_of_not_frameDependent hi] at hb; cases hb

end Sys2Proof.Machine

/-!
SUPPORT. What a command can do, said once: `Effect` lists the states a command can leave when no
check raises, with what its checks have made sure of.
-/
namespace Sys2Proof.Machine

/-! ### What a command can do -/

/-- The commands by which the host writes the buffer (40_bit_buffer.md R101). -/
def writesBits : Instr → Bool
  | .bufPut _ _ _ => true
  | .bitSet _ => true
  | .bitFlip _ => true
  | _ => false

/-- The commands that set a verdict (10_state.md R26). -/
def validates : Instr → Bool
  | .crcCorr _ _ _ _ => true
  | .crc9Chk _ _ _ => true
  | _ => false

/-- The state a command can leave when no check raises, with what the checks have made sure of. -/
inductive Effect (s : State) : Instr → State → Prop where
  /-- The response alone. -/
  | answer {i : Instr} (v : Value) : Effect s i (s.respond .ok v)
  /-- `BUF_INIT` starts a frame context (40_bit_buffer.md R100). -/
  | context {len : Half} (v : Value) (hcfg : s.cfgFault = false) (hcap : len.toNat ≤ s.cfg.cap) :
      Effect s (.bufInit len) ((s.newContext len).respond .ok v)
  /-- The host writes bits below `LEN` (40_bit_buffer.md R102, R104, R105). -/
  | write {i : Instr} {m : Memory} (hi : writesBits i = true) (hs : Writable s)
      (hwf : Memory.wf s.buf → Memory.wf m) (hm : ∀ c ∈ m, c.1 < s.len.toNat ∨ c ∈ s.buf) :
      Effect s i ((s.withBuf m).respond .ok 0#32)
  /-- A validation passes (41_crc_ecc.md R137, R145). -/
  | passed {i : Instr} (v : Value) (hi : validates i = true) (hs : Writable s) :
      Effect s i ((s.setVerdict .passed).respond .ok v)
  /-- `CRC_CORR` flips the one bit it located, which lies below `LEN` (41_crc_ecc.md R137). -/
  | corrected {t : BitVec 8} {ms cs seed : Half} {x : Nat} (v : Value) (hs : Writable s)
      (hx : x < s.len.toNat) :
      Effect s (.crcCorr t ms cs seed)
        ((((s.withBuf (flipBit s.buf x)).incCorr 1).setVerdict .corrected).respond .ok v)
  /-- A validation fails and counts `n` (41_crc_ecc.md R138, R145). -/
  | failed {i : Instr} {n : Nat} (v : Value) (hi : validates i = true) (hs : Writable s)
      (hn : n ≤ max 2 s.cfg.crc9FailInc) :
      Effect s i (((s.incCorr n).setVerdict .failed).respond .ok v)
  /-- `FRM_LOCATE` constructs the frame of a class whose regions lie below `LEN`
  (43_frame_sync.md R192, R193). -/
  | frame {j : Nat} {e : SyncEntry} (v : Value) (hs : Ready s) (hl : locatable s = true)
      (hj : s.cfg.syncTable[j]? = some e) (hfit : regionsEnd e ≤ s.len.toNat) :
      Effect s .frmLocate ((s.setFrame (BitVec.ofNat 8 j)).respond .ok v)
  /-- `FRM_GETSUB` fills the cache (43_frame_sync.md R197). -/
  | cache (v : Value) (hs : Framed s) (hsub : (currentClass s).hasSub = true) :
      Effect s .frmGetsub ((s.fillSub (subView (currentClass s))).respond .ok v)

theorem corrEffect_effect {T : CorrTable} {s : State} (t : BitVec 8) {ms cs : Half} (seed : Half)
    (hs : Writable s) (hfit : corrBad T s.len.toNat ms.toNat cs.toNat = false) :
    Effect s (.crcCorr t ms cs seed) (corrEffect T ms cs seed s) := by
  simp only [corrBad, Bool.or_eq_false_iff, decide_eq_false_iff_not] at hfit
  unfold corrEffect
  extract_lets res
  split
  · exact .passed _ rfl hs
  · have hspec := lookupSyndrome_spec T res
    cases hp : lookupSyndrome T res with
    | some p =>
      rw [hp] at hspec
      exact .corrected _ hs (by have := hspec.1; omega)
    | none => exact .failed _ rfl hs (le_max_left _ _)

theorem crc9Effect_effect {s : State} (U : Crc9Table) (t : BitVec 8) (ms cs : Half)
    (hs : Writable s) : Effect s (.crc9Chk t ms cs) (crc9Effect U ms cs s) := by
  unfold crc9Effect
  extract_lets res
  split
  · exact .passed _ rfl hs
  · exact .failed _ rfl hs (le_max_right _ _)

theorem locateEffect_effect {s : State} (hs : Ready s) (hl : locatable s = true) :
    Effect s .frmLocate (locateEffect s) := by
  have hspec := locateClass_spec s.cfg.syncTable s.buf s.len.toNat
  unfold locateEffect
  cases hj : locateClass s.cfg.syncTable s.buf s.len.toNat with
  | some j =>
    rw [hj] at hspec
    obtain ⟨e, he, hmatch, -⟩ := hspec
    simp only [syncMatches, Bool.and_eq_true, decide_eq_true_eq] at hmatch
    exact .frame _ hs hl he hmatch.1
  | none => exact .answer _

theorem getsubEffect_effect {s : State} (hs : Framed s) (hsub : (currentClass s).hasSub = true) :
    Effect s .frmGetsub (getsubEffect s) := by
  unfold getsubEffect
  split
  · exact .answer _
  · exact .cache _ hs hsub

/-- A command all of whose checks pass has one of the effects above. -/
theorem effect_effectOf {i : Instr} {s : State} (h : firstRaised (gateOf s i) s = none) :
    Effect s i (effectOf s i) := by
  cases i with
  | bufInit len =>
    obtain ⟨hcfg, hlegal⟩ := (firstRaised_freeGate_eq_none _ s).mp h
    simp only [lenLegal, Bool.and_eq_true, decide_eq_true_eq] at hlegal
    exact .context _ hcfg hlegal.2
  | bufPut start count data =>
    obtain ⟨hs, -, hbounds⟩ := writable_of_frameGate h
    have hfit : ¬ s.len.toNat < start.toNat + count.toNat := by
      simpa [rangeCheck_eq_none] using hbounds
    refine .write rfl hs (putBits_wf _ _ _) fun c hc => ?_
    exact (mem_putBits hc).imp_left fun hspan => by omega
  | bitSet i =>
    obtain ⟨hs, -, hbounds⟩ := writable_of_frameGate h
    have hlt := (indexCheck_eq_none s i).mp hbounds
    exact .write rfl hs (write_wf _ _) fun c hc => (mem_write hc).imp_left fun hci => by omega
  | bitFlip i =>
    obtain ⟨hs, -, hbounds⟩ := writable_of_frameGate h
    have hlt := (indexCheck_eq_none s i).mp hbounds
    exact .write rfl hs (flipBit_wf _) fun c hc => (mem_write hc).imp_left fun hci => by omega
  | crcCorr t ms cs seed =>
    simp only [gateOf, effectOf] at h ⊢
    cases hT : s.cfg.corrTables[t.toNat]? with
    | none => rw [hT] at h; cases (writable_of_frameGate h).2.1
    | some T =>
      rw [hT] at h
      obtain ⟨hs, -, hbounds⟩ := writable_of_frameGate h
      exact corrEffect_effect t seed hs ((rangeCheck_eq_none _ _).mp hbounds)
  | crc9Chk t ms cs =>
    simp only [gateOf, effectOf] at h ⊢
    cases hU : s.cfg.crc9Tables[t.toNat]? with
    | none => rw [hU] at h; cases (writable_of_frameGate h).2.1
    | some U =>
      rw [hU] at h
      exact crc9Effect_effect U t ms cs (writable_of_frameGate h).1
  | frmLocate =>
    obtain ⟨hcfg, -, habort, hl, -⟩ := (firstRaised_frameGate_eq_none _ _ _ s).mp h
    exact locateEffect_effect ⟨hcfg, habort, ((locatable_eq_true s).mp hl).1⟩ hl
  | frmGetsub =>
    obtain ⟨hcfg, -, habort, hstate, -⟩ := (firstRaised_frameGate_eq_none _ _ _ s).mp h
    obtain ⟨hframed, hsub⟩ := Bool.and_eq_true_iff.mp hstate
    obtain ⟨hlen, hvalid⟩ := (framed_eq_true s).mp hframed
    exact getsubEffect_effect ⟨⟨hcfg, habort, hlen⟩, hvalid⟩ hsub
  | opcIsvar id =>
    simp only [gateOf, effectOf] at h ⊢
    cases hd : descriptorOf s.cfg id with
    | none => rw [hd] at h; cases ((firstRaised_freeGate_eq_none _ s).mp h).2
    | some d => exact .answer _
  | opcDesc id =>
    simp only [gateOf, effectOf] at h ⊢
    cases hd : descriptorOf s.cfg id with
    | none => rw [hd] at h; cases ((firstRaised_freeGate_eq_none _ s).mp h).2
    | some d => exact .answer _
  | rdReg sel =>
    simp only [gateOf, effectOf] at h ⊢
    cases hr : regOf sel with
    | none => rw [hr] at h; cases (firstRaised_readGate_eq_none _ s).mp h
    | some r => exact .answer _
  | bitGet | bitNsb | bufGetr | crc8Calc | opcLookup | frmHassub | frmPayload => exact .answer _

/-- What a command can leave: the fault of its first failing check, or one of the effects above. -/
theorem exec_effect {i : Instr} {s t : State} (h : exec i s = .next t) :
    (∃ r, firstRaised (gateOf s i) s = some r ∧ t = s.raise r) ∨ Effect s i t := by
  obtain ⟨r, hr, heq⟩ | ⟨hnone, heq⟩ := exec_cases i s
  · exact .inl ⟨r, hr, by rw [h] at heq; injection heq⟩
  · rw [h] at heq
    injection heq with heq
    exact .inr (heq ▸ effect_effectOf hnone)

end Sys2Proof.Machine

/-!
CERTIFICATE. The configuration check of reset (70_reset_and_hazards.md R272), and the invariant of
10_state.md R39: one lemma for each update of the state, then every effect, every command, every
step.
-/
namespace Sys2Proof.Machine

/-! ### The state after reset, and its configuration check -/

/-- The first cause of a list is within any bound of all its causes. -/
theorem firstCause_le {cs : List Nat} {n : Nat} (h : ∀ c ∈ cs, c ≤ n) : firstCause cs ≤ n := by
  induction cs with
  | nil => exact Nat.zero_le n
  | cons c cs ih =>
    rw [firstCause]
    split
    · exact ih fun d hd => h d (List.mem_cons_of_mem c hd)
    · exact h c List.mem_cons_self

theorem firstCause_map_le {α : Type} {f : α → Nat} {n : Nat} (h : ∀ x, f x ≤ n) (xs : List α) :
    firstCause (xs.map f) ≤ n :=
  firstCause_le fun _ hc => by obtain ⟨x, -, rfl⟩ := List.mem_map.mp hc; exact h x

/-- No element of a list has a cause exactly when every element passes its test. -/
theorem firstCause_map_eq_zero_iff {α : Type} {f : α → Nat} {legal : α → Prop}
    (h : ∀ x, f x = 0 ↔ legal x) (xs : List α) :
    firstCause (xs.map f) = 0 ↔ ∀ x ∈ xs, legal x := by
  simp [firstCause_eq_zero_iff, h]

/-- A test with its own code passes, and so do the tests behind it. -/
theorem ite_cause_eq_zero_iff {p : Bool} {code rest : Nat} (hcode : code ≠ 0) :
    (if p then code else rest) = 0 ↔ p = false ∧ rest = 0 := by
  cases p <;> simp [hcode]

theorem capCause_eq_zero_iff (c : Cfg) : capCause c.cap = 0 ↔ capLegal c := by
  simp only [capCause, capLegal, ite_cause_eq_zero_iff (by decide : 12 ≠ 0),
    Bool.or_eq_false_iff, decide_eq_false_iff_not, and_true]
  omega

theorem corrTablesCause_eq_zero_iff (c : Cfg) :
    corrTablesCause c.corrTables = 0 ↔ corrTablesLegal c := by
  rw [corrTablesLegal, ← firstCause_map_eq_zero_iff fun T => (corrTableCause_spec T).1]
  simp only [corrTablesCause, tableCountLegal, ite_cause_eq_zero_iff (by decide : 1 ≠ 0),
    Bool.or_eq_false_iff, decide_eq_false_iff_not]
  omega

theorem crc9TablesCause_eq_zero_iff (c : Cfg) :
    crc9TablesCause c.crc9Tables = 0 ↔ crc9TablesLegal c := by
  rw [crc9TablesLegal, ← firstCause_map_eq_zero_iff fun U => (crc9TableCause_spec U).1]
  simp only [crc9TablesCause, tableCountLegal, ite_cause_eq_zero_iff (by decide : 4 ≠ 0),
    Bool.or_eq_false_iff, decide_eq_false_iff_not]
  omega

theorem failIncCause_eq_zero_iff (c : Cfg) :
    failIncCause c.crc9FailInc = 0 ↔ failIncLegal c := by
  simp [failIncCause, failIncLegal, or_iff_not_imp_left]

theorem opcDupCause_eq_zero_iff (c : Cfg) : opcDupCause c.opcDef = 0 ↔ opcCodesDistinct c := by
  rw [opcCodesDistinct, ← hasDup_eq_false_iff]
  simp [opcDupCause]

theorem fallbackLenCause_eq_zero_iff (c : Cfg) :
    fallbackLenCause c = 0 ↔ fallbackLensLegal c := by
  simp only [fallbackLensLegal, ← lengthLegal_iff]
  simp [fallbackLenCause, and_assoc]

theorem syncTableCause_eq_zero_iff (c : Cfg) :
    syncTableCause c.cap c.syncTable = 0 ↔ syncTableLegal c := by
  rw [syncTableLegal, ← firstCause_map_eq_zero_iff fun e => (syncEntryCause_spec c.cap e).1]
  simp only [syncTableCause, ite_cause_eq_zero_iff (by decide : 10 ≠ 0),
    Bool.or_eq_false_iff, decide_eq_false_iff_not]
  omega

theorem syncDupCause_eq_zero_iff (c : Cfg) : syncDupCause c.syncTable = 0 ↔ syncKeysDistinct c := by
  rw [syncKeysDistinct, ← hasDupKey_eq_false_iff]
  simp [syncDupCause]

/-- The check of reset passes exactly the legal configurations (70_reset_and_hazards.md R272). -/
theorem checkCfg_eq_zero_iff (c : Cfg) : checkCfg c = 0 ↔ cfgLegal c := by
  simp only [checkCfg, firstCause_eq_zero_iff, List.forall_mem_cons, List.not_mem_nil,
    false_implies, implies_true, and_true, cfgLegal, capCause_eq_zero_iff,
    corrTablesCause_eq_zero_iff, crc9TablesCause_eq_zero_iff, failIncCause_eq_zero_iff,
    firstCause_map_eq_zero_iff fun e => (opcDefCause_spec e).1, opcDefsLegal,
    opcDupCause_eq_zero_iff, fallbackLenCause_eq_zero_iff, syncTableCause_eq_zero_iff,
    syncDupCause_eq_zero_iff]

theorem corrTableCause_le (T : CorrTable) : corrTableCause T ≤ 3 := by
  obtain ⟨-, -, -, -, hle⟩ := corrTableCause_spec T
  exact hle

theorem crc9TableCause_le (U : Crc9Table) : crc9TableCause U ≤ 6 := by
  obtain ⟨-, -, -, -, hle⟩ := crc9TableCause_spec U
  exact hle

theorem opcDefCause_le (e : OpcDef) : opcDefCause e ≤ 9 := by
  obtain ⟨-, -, -, h | h | h⟩ := opcDefCause_spec e <;> omega

theorem syncEntryCause_le (cap : Nat) (e : SyncEntry) : syncEntryCause cap e ≤ 10 := by
  obtain ⟨-, h | h⟩ := syncEntryCause_spec cap e <;> omega

/-- The codes of the check end at 13 (70_reset_and_hazards.md R273). -/
theorem checkCfg_le (c : Cfg) : checkCfg c ≤ 13 := by
  have hcorr := firstCause_map_le corrTableCause_le c.corrTables
  have hcrc9 := firstCause_map_le crc9TableCause_le c.crc9Tables
  have hdef := firstCause_map_le opcDefCause_le c.opcDef
  have hsync := firstCause_map_le (syncEntryCause_le c.cap) c.syncTable
  refine firstCause_le fun n hn => ?_
  simp only [List.mem_cons, List.not_mem_nil, or_false] at hn
  rcases hn with rfl | rfl | rfl | rfl | rfl | rfl | rfl | rfl | rfl
  · unfold capCause; split <;> omega
  · unfold corrTablesCause; split <;> omega
  · unfold crc9TablesCause; split <;> omega
  · unfold failIncCause; split <;> omega
  · omega
  · unfold opcDupCause; split <;> omega
  · unfold fallbackLenCause; split <;> omega
  · unfold syncTableCause; split <;> omega
  · unfold syncDupCause; split <;> omega

/-! ### The invariant -/

/-- The state after reset is empty, so every clause about a buffer, a frame or a fault holds of it
without content (10_state.md R38, R39). -/
theorem resetWith_inv (c : Cfg) : Inv (State.resetWith c) where
  bufCanonical := wf_nil
  bufBelowLen := by simp [State.resetWith]
  lenWithinCap := Nat.zero_le _
  causeOfCheck := rfl
  faultOfCheck := rfl
  faultyIsEmpty _ := rfl
  emptyContext _ := ⟨rfl, rfl, rfl, rfl, rfl⟩
  frameValidated h := by cases h
  frameFits h := by cases h
  noFrameNoClass _ := rfl
  cacheOfFrame h := by cases h
  cacheFresh h := by cases h
  cacheEmpty _ := rfl
  countBound := Nat.zero_le _
  countUnset _ := rfl
  abortedIffCause := ⟨fun _ => rfl, fun _ => rfl⟩
  causeCodes := .inl rfl
  infoClear _ := rfl
  faultResult h := absurd rfl h

section
variable {s : State}

/-- The host's inputs are no part of the invariant. -/
theorem Inv.withPort (hs : Inv s) (p : List HostInput) : Inv (s.withPort p) := { hs with }

theorem Inv.respond (hs : Inv s) {st : Status} {v : Value} (h : st ≠ .ok → v = 0#32) :
    Inv (s.respond st v) := { hs with faultResult := h }

/-- An answer `OK` may carry any result. -/
theorem Inv.respond_ok (hs : Inv s) (v : Value) : Inv (s.respond .ok v) :=
  hs.respond fun h => absurd rfl h

theorem Inv.abortFrame (hs : Inv s) {cause : BitVec 8} (hcause : cause = 1#8 ∨ cause = 2#8)
    (x : Half) (hlen : s.len ≠ 0#16) : Inv (s.abortFrame cause x) :=
  { hs with
    emptyContext := fun h => absurd h hlen
    abortedIffCause := by rcases hcause with rfl | rfl <;> simp
    causeCodes := .inr hcause
    infoClear := fun h => by cases h }

/-- A raised fault keeps the invariant, because a frame-fatal one needs a loaded buffer. -/
theorem Inv.raise (hs : Inv s) {r : Raised} (h : frameFatal r = true → s.len ≠ 0#16) :
    Inv (s.raise r) := by
  cases r with
  | indexError x => exact (hs.abortFrame (.inl rfl) x (h rfl)).respond fun _ => rfl
  | rangeError x => exact (hs.abortFrame (.inr rfl) x (h rfl)).respond fun _ => rfl
  | _ => exact hs.respond fun _ => rfl

/-- Writes below `LEN` in canonical form keep the invariant (10_state.md R23). -/
theorem Inv.withBuf (hs : Inv s) {m : Memory} (hwf : Memory.wf m)
    (hm : ∀ c ∈ m, c.1 < s.len.toNat ∨ c ∈ s.buf) : Inv (s.withBuf m) :=
  { hs with
    bufCanonical := hwf
    bufBelowLen := fun c hc => (hm c hc).elim id (hs.bufBelowLen c) }

/-- A new context of a legal length (40_bit_buffer.md R100). -/
theorem Inv.newContext (hs : Inv s) {n : Half} (hcfg : s.cfgFault = false)
    (hcap : n.toNat ≤ s.cfg.cap) : Inv (s.newContext n) where
  bufCanonical := wf_nil
  bufBelowLen := by simp
  lenWithinCap := hcap
  causeOfCheck := hs.causeOfCheck
  faultOfCheck := hs.faultOfCheck
  faultyIsEmpty h := absurd (hcfg.symm.trans h) Bool.false_ne_true
  emptyContext _ := ⟨rfl, rfl, rfl, rfl, rfl⟩
  frameValidated h := by cases h
  frameFits h := by cases h
  noFrameNoClass _ := rfl
  cacheOfFrame h := by cases h
  cacheFresh h := by cases h
  cacheEmpty _ := rfl
  countBound := Nat.zero_le _
  countUnset _ := rfl
  abortedIffCause := ⟨fun _ => rfl, fun _ => rfl⟩
  causeCodes := .inl rfl
  infoClear _ := rfl
  faultResult := hs.faultResult

/-- Without a verdict there is no frame (10_state.md R39 (b)). -/
theorem Inv.fvalid_of_unset (hs : Inv s) (h : s.verdict = .unset) : s.fvalid = false := by
  cases hf : s.fvalid with
  | false => rfl
  | true => simpa [h] using (hs.frameValidated hf).1

/-- A validation that leaves the counter as it is. -/
theorem Inv.setVerdict (hs : Inv s) {v : Verdict} (hw : Writable s) (hv : v ≠ .unset) :
    Inv (s.setVerdict v) :=
  { hs with
    emptyContext := fun h => absurd h hw.1.loaded
    frameValidated := fun h => absurd ((hs.fvalid_of_unset hw.2).symm.trans h) Bool.false_ne_true
    countUnset := fun h => absurd h hv }

/-- A validation that counts `n`: the counter starts at 0, so it stays within its bound
(10_state.md R39 (d), (e)). -/
theorem Inv.incCorr_setVerdict (hs : Inv s) {n : Nat} {v : Verdict} (hw : Writable s)
    (hn : n ≤ max 2 s.cfg.crc9FailInc) (hv : v ≠ .unset) :
    Inv ((s.incCorr n).setVerdict v) := by
  have hcount : s.ccount.toNat + n = n := by simp [hs.countUnset hw.2]
  exact { hs.setVerdict hw hv with
    emptyContext := fun h => absurd h hw.1.loaded
    countUnset := fun h => absurd h hv
    countBound := (sat32_toNat_le _).trans (hcount.le.trans hn) }

/-- In a valid configuration a class index fits `FCLASS` (10_state.md R33). -/
theorem Inv.toNat_ofNat_class (hs : Inv s) (hcfg : s.cfgFault = false) {j : Nat} {e : SyncEntry}
    (hj : s.cfg.syncTable[j]? = some e) : (BitVec.ofNat 8 j).toNat = j := by
  have hlegal : cfgLegal s.cfg := by
    rw [← checkCfg_eq_zero_iff]
    simpa using hs.faultOfCheck.symm.trans hcfg
  obtain ⟨-, -, -, -, -, -, -, ⟨-, hcount, -⟩, -⟩ := hlegal
  have hlt := (List.getElem?_eq_some_iff.mp hj).1
  rw [BitVec.toNat_ofNat]
  omega

/-- A frame of a fitting class, constructed over a good verdict (43_frame_sync.md R193). -/
theorem Inv.setFrame (hs : Inv s) {j : Nat} {e : SyncEntry} (hready : Ready s)
    (hl : locatable s = true) (hj : s.cfg.syncTable[j]? = some e)
    (hfit : regionsEnd e ≤ s.len.toNat) : Inv (s.setFrame (BitVec.ofNat 8 j)) := by
  obtain ⟨hlen, hverdict, hnone⟩ := (locatable_eq_true s).mp hl
  have hclass := hs.toNat_ofNat_class hready.1 hj
  have hcurrent : currentClass (s.setFrame (BitVec.ofNat 8 j)) = e := by
    simp only [currentClass, setFrame_cfg, setFrame_fclass, hclass, hj, Option.getD_some]
  have hempty : s.subc = false := by
    cases hc : s.subc with
    | false => rfl
    | true => exact absurd (hnone.symm.trans (hs.cacheOfFrame hc).1) Bool.false_ne_true
  exact { hs with
    emptyContext := fun h => absurd h hlen
    frameValidated := fun _ =>
      ⟨hverdict, hclass.symm ▸ (List.getElem?_eq_some_iff.mp hj).1⟩
    frameFits := fun _ => hcurrent.symm ▸ hfit
    noFrameNoClass := fun h => by cases h
    cacheOfFrame := fun h => by cases h
    cacheFresh := fun h => by cases h
    cacheEmpty := fun _ => hs.cacheEmpty hempty }

/-- The cache filled with the view of the frame's class (43_frame_sync.md R197). -/
theorem Inv.fillSub (hs : Inv s) (hframed : Framed s) (hsub : (currentClass s).hasSub = true) :
    Inv (s.fillSub (subView (currentClass s))) :=
  { hs with
    emptyContext := fun h => absurd h hframed.1.loaded
    cacheOfFrame := fun _ => ⟨hframed.2, hsub⟩
    cacheFresh := fun _ => rfl
    cacheEmpty := fun h => by cases h }

/-- Every effect of a command keeps the invariant. -/
theorem Inv.effect (hs : Inv s) {i : Instr} {t : State} (h : Effect s i t) : Inv t := by
  cases h with
  | answer v => exact hs.respond_ok v
  | context v hcfg hcap => exact (hs.newContext hcfg hcap).respond_ok v
  | write hi hw hwf hm => exact (hs.withBuf (hwf hs.bufCanonical) hm).respond_ok _
  | passed v hi hw => exact (hs.setVerdict hw (by decide)).respond_ok v
  | @corrected _ _ _ _ x v hw hx =>
    have hflip : Inv (s.withBuf (flipBit s.buf x)) :=
      hs.withBuf (flipBit_wf _ hs.bufCanonical) fun c hc =>
        (mem_write hc).imp_left fun hcx => by omega
    exact (hflip.incCorr_setVerdict hw (by omega) (by decide)).respond_ok v
  | failed v hi hw hn => exact (hs.incCorr_setVerdict hw hn (by decide)).respond_ok v
  | frame v hready hl hj hfit => exact (hs.setFrame hready hl hj hfit).respond_ok v
  | cache v hframed hsub => exact (hs.fillSub hframed hsub).respond_ok v

/-- Every command keeps the invariant. -/
theorem Inv.exec (hs : Inv s) {i : Instr} {t : State} (h : exec i s = .next t) : Inv t := by
  obtain ⟨r, hr, rfl⟩ | heff := exec_effect h
  · exact hs.raise fun hfatal => loaded_of_frameFatal hr hfatal
  · exact hs.effect heff

end

/-- Settles O24: a step waits, resets, refuses a word or runs a command, and each keeps the
invariant. -/
theorem stepKeepsInvariant : Obligations.StepKeepsInvariant := by
  intro s t hs hstep
  obtain ⟨-, h⟩ | ⟨c, rest, -, h⟩ | ⟨w, rest, i, -, -, h⟩ | ⟨w, rest, r, -, -, h⟩ :=
    step_cases s <;> rw [h] at hstep
  · injection hstep with hstep
    exact hstep ▸ hs
  · injection hstep with hstep
    exact hstep ▸ (resetWith_inv c).withPort rest
  · exact (hs.withPort rest).exec hstep
  · injection hstep with hstep
    exact hstep ▸ (hs.withPort rest).raise fun h => by cases h

/-- Settles O25: reset leaves an empty context and the check's own code. -/
theorem resetMeetsInvariant : Obligations.ResetMeetsInvariant := resetWith_inv

/-- Settles O26: all fields are written out by `State.resetWith`; the check's code fits 8 bits. -/
theorem resetValues : Obligations.ResetValues := by
  intro c
  have hfault : (checkCfg c != 0) = true ↔ ¬ cfgLegal c := by
    rw [← checkCfg_eq_zero_iff, bne_iff_ne]
  have hcode : (BitVec.ofNat 8 (checkCfg c)).toNat = checkCfg c := by
    have := checkCfg_le c
    rw [BitVec.toNat_ofNat]; omega
  exact ⟨read_nil, rfl, rfl, rfl, rfl, rfl, rfl, rfl, rfl, rfl, rfl, rfl, rfl, hfault, hcode⟩

end Sys2Proof.Machine

/-!
CERTIFICATE. Who writes what (10_state.md R24 to R31), the refusals in a wrong state, and the
register map (10_state.md R36, R37).
-/
namespace Sys2Proof.Machine

/-! ### Who writes what -/

section
variable (s : State) (r : Raised)

@[simp] theorem raise_buf : (s.raise r).buf = s.buf := by rw [raise_frame]
@[simp] theorem raise_len : (s.raise r).len = s.len := by rw [raise_frame]
@[simp] theorem raise_ccount : (s.raise r).ccount = s.ccount := by rw [raise_frame]
@[simp] theorem raise_verdict : (s.raise r).verdict = s.verdict := by rw [raise_frame]
@[simp] theorem raise_fvalid : (s.raise r).fvalid = s.fvalid := by rw [raise_frame]
@[simp] theorem raise_fclass : (s.raise r).fclass = s.fclass := by rw [raise_frame]
@[simp] theorem raise_subc : (s.raise r).subc = s.subc := by rw [raise_frame]
@[simp] theorem raise_subview : (s.raise r).subview = s.subview := by rw [raise_frame]

end

/-- A fault that records itself answers `INDEX_ERROR` or `RANGE_ERROR` (60_exceptions.md R236). -/
theorem raise_status_of_recorded {s : State} {r : Raised}
    (h : (s.raise r).aborted ≠ s.aborted ∨ (s.raise r).faultCause ≠ s.faultCause
      ∨ (s.raise r).faultInfo ≠ s.faultInfo) :
    (s.raise r).status = .indexError ∨ (s.raise r).status = .rangeError := by
  cases r with
  | indexError x => exact .inl rfl
  | rangeError x => exact .inr rfl
  | _ => simp [State.raise] at h

theorem writesBits_eq_true {i : Instr} (h : writesBits i = true) :
    (∃ a n d, i = .bufPut a n d) ∨ (∃ a, i = .bitSet a) ∨ ∃ a, i = .bitFlip a := by
  cases i with
  | bufPut a n d => exact .inl ⟨a, n, d, rfl⟩
  | bitSet a => exact .inr (.inl ⟨a, rfl⟩)
  | bitFlip a => exact .inr (.inr ⟨a, rfl⟩)
  | _ => cases h

theorem validates_eq_true {i : Instr} (h : validates i = true) :
    (∃ t a b c, i = .crcCorr t a b c) ∨ ∃ t a b, i = .crc9Chk t a b := by
  cases i with
  | crcCorr t a b c => exact .inl ⟨t, a, b, c, rfl⟩
  | crc9Chk t a b => exact .inr ⟨t, a, b, rfl⟩
  | _ => cases h

/-- Settles O22, by what a raised fault and each effect of a command leave unchanged. -/
theorem onlyTheNamedCommandsWrite : Obligations.OnlyTheNamedCommandsWrite := by
  intro i s t h
  obtain ⟨r, -, rfl⟩ | heff := exec_effect h
  · have hrecorded := @raise_status_of_recorded s r
    simpa only [raise_len, raise_buf, raise_ccount, raise_verdict, raise_fvalid, raise_fclass,
      raise_subc, raise_subview, ne_eq, not_true_eq_false, or_self, false_implies, true_and]
      using fun hw => .inr (hrecorded hw)
  · cases heff with
    | answer v => simp
    | context v => simp
    | write hi =>
      obtain ⟨a, n, d, rfl⟩ | ⟨a, rfl⟩ | ⟨a, rfl⟩ := writesBits_eq_true hi <;> simp
    | passed v hi =>
      obtain ⟨t, a, b, c, rfl⟩ | ⟨t, a, b, rfl⟩ := validates_eq_true hi <;> simp
    | corrected v => simp
    | failed v hi =>
      obtain ⟨t, a, b, c, rfl⟩ | ⟨t, a, b, rfl⟩ := validates_eq_true hi <;> simp
    | frame v => simp
    | cache v => simp

/-- Settles O20: the effects that write the verdict, the counter or the buffer are those of
`BUF_INIT` or of a write phase, and after a verdict there is none. -/
theorem verdictIsTerminal : Obligations.VerdictIsTerminal := by
  intro i s hverdict hi
  obtain ⟨r, -, h⟩ | ⟨hnone, h⟩ := exec_cases i s
  · exact ⟨_, h, raise_verdict s r, raise_ccount s r, raise_buf s r⟩
  · refine ⟨_, h, ?_⟩
    have heff := effect_effectOf hnone
    generalize effectOf s i = t at heff
    cases heff with
    | answer v => exact ⟨rfl, rfl, rfl⟩
    | frame v => exact ⟨rfl, rfl, rfl⟩
    | cache v => exact ⟨rfl, rfl, rfl⟩
    | context v => exact absurd rfl (hi _)
    | write _ hs => exact absurd hs.2 hverdict
    | passed _ _ hs => exact absurd hs.2 hverdict
    | corrected _ hs => exact absurd hs.2 hverdict
    | failed _ _ hs => exact absurd hs.2 hverdict

/-! ### Refusals in the wrong state -/

/-- Host writes and validations need the write phase, whatever table they name
(40_bit_buffer.md R101, 41_crc_ecc.md R133). -/
theorem stateOk_of_writesOrValidates {i : Instr} (s : State)
    (hi : writesBits i = true ∨ validates i = true) : (gateOf s i).stateOk = writePhase s := by
  cases i with
  | bufPut | bitSet | bitFlip => rfl
  | crcCorr t => simp only [gateOf]; cases s.cfg.corrTables[t.toNat]? <;> rfl
  | crc9Chk t => simp only [gateOf]; cases s.cfg.crc9Tables[t.toNat]? <;> rfl
  | _ => simp [writesBits, validates] at hi

/-- The registry names a descriptor for exactly the ids of 42_opcode_classifier.md R171. -/
theorem descriptorOf_isSome_iff (c : Cfg) (id : Half) :
    (descriptorOf c id).isSome = true ↔ namesDescriptor c id := by
  have hdef : (findDef c id.toNat).isSome = true ↔ id.toNat ∈ c.opcDef.map (fun e => e.code) := by
    simp [findDef, List.find?_isSome]
  unfold descriptorOf namesDescriptor
  rw [← hdef]
  split
  · rw [Option.isSome_map]
    exact ⟨fun h => .inl ⟨by assumption, h⟩, fun h => h.elim And.right fun h => by omega⟩
  · split
    · exact iff_of_true rfl (.inr (by omega))
    · split
      · exact iff_of_true rfl (.inr (by omega))
      · exact iff_of_false Bool.false_ne_true fun h => h.elim (fun h => by omega) fun h => by omega

/-- The register map has the selectors 0 to 9 (10_state.md R36). -/
theorem regOf_isSome_iff (sel : BitVec 8) : (regOf sel).isSome = true ↔ sel.toNat ≤ 9 := by
  unfold regOf
  split
  case h_11 =>
    simp only [imp_false] at *
    exact iff_of_false Bool.false_ne_true (by omega)
  all_goals exact iff_of_true rfl (by omega)

/-- The legality test of a command's gate is the legal operand set of 30_encoding.md R75. -/
theorem gateOf_legal_iff (s : State) (i : Instr) :
    (gateOf s i).legal = true ↔ operandsLegal s.cfg i := by
  cases i with
  | bufInit => simp [gateOf, freeGate, lenLegal, operandsLegal]
  | bufPut => simp [gateOf, frameGate, putLegal, operandsLegal, and_assoc]
  | bufGetr => simp [gateOf, frameGate, widthLegal, operandsLegal]
  | crcCorr t =>
    simp only [gateOf, operandsLegal]
    cases s.cfg.corrTables[t.toNat]? <;> simp [frameGate, seedLegal]
  | crc9Chk t =>
    simp only [gateOf, operandsLegal]
    cases hU : s.cfg.crc9Tables[t.toNat]? with
    | none => exact iff_of_false Bool.false_ne_true (List.getElem?_eq_none_iff.mp hU).not_gt
    | some U => exact iff_of_true rfl (List.getElem?_eq_some_iff.mp hU).1
  | crc8Calc => simp [gateOf, frameGate, countLegal, operandsLegal]
  | opcIsvar id => exact descriptorOf_isSome_iff s.cfg id
  | opcDesc id => exact descriptorOf_isSome_iff s.cfg id
  | frmPayload seg => simp [gateOf, frameGate, segLegal, operandsLegal, ← BitVec.toNat_inj]
  | rdReg sel => exact regOf_isSome_iff sel
  | bitGet | bitSet | bitFlip | bitNsb | opcLookup | frmLocate | frmHassub | frmGetsub =>
    exact iff_of_true rfl trivial

/-- Steps 2 to 4 of 60_exceptions.md R240 passed, a failing state check answers `STATE_ERROR` and
changes nothing else (R233). -/
theorem exec_stateError {i : Instr} {s : State} (hcfg : s.cfgFault = false)
    (habort : s.aborted = false) (hlegal : operandsLegal s.cfg i)
    (hstate : (gateOf s i).stateOk = false) :
    exec i s = .next { s with status := .stateError, result := 0#32 } := by
  have hraised : firstRaised (gateOf s i) s = some .stateError := by
    simp [firstRaised, hcfg, habort, (gateOf_legal_iff s i).mpr hlegal, hstate]
  rw [exec_eq_runCommand, runCommand_raise hraised]
  rfl

theorem framed_eq_false {s : State} (h : s.fvalid = false) : framed s = false := by
  simp [framed, h]

theorem currentClass_eq {s : State} {e : SyncEntry}
    (h : s.cfg.syncTable[s.fclass.toNat]? = some e) : currentClass s = e := by
  simp [currentClass, h]

/-- Settles O19: in each case the operands are legal and the state check of the gate fails. -/
theorem wrongStateIsAnswered : Obligations.WrongStateIsAnswered := by
  intro s hcfg habort
  refine ⟨fun i hlegal hi hlen => ?_, fun i hlegal hverdict hi => ?_, fun hlocate => ?_,
    fun hnone => ⟨?_, ?_, fun seg hseg => ?_⟩, fun e he => ⟨fun hsub => ?_, fun hp2 => ?_⟩⟩
  · refine exec_stateError hcfg habort hlegal ?_
    exact Bool.eq_false_iff.mpr fun h => loaded_of_stateOk hi h hlen
  · refine exec_stateError hcfg habort hlegal ?_
    have hwriter : writesBits i = true ∨ validates i = true := by
      rcases hi with ⟨a, n, d, rfl⟩ | ⟨a, rfl⟩ | ⟨a, rfl⟩ | ⟨t, a, b, c, rfl⟩ | ⟨t, a, b, rfl⟩ <;>
        simp [writesBits, validates]
    rw [stateOk_of_writesOrValidates s hwriter]
    exact Bool.eq_false_iff.mpr fun h => hverdict ((writePhase_eq_true s).mp h).2
  · refine exec_stateError hcfg habort trivial (Bool.eq_false_iff.mpr fun h => ?_)
    obtain ⟨-, hgood, hfree⟩ := (locatable_eq_true s).mp h
    rcases hlocate with hv | hv | hv
    · simp [hv] at hgood
    · simp [hv] at hgood
    · exact absurd (hv.symm.trans hfree) Bool.true_eq_false.mp
  · exact exec_stateError hcfg habort trivial (framed_eq_false hnone)
  · exact exec_stateError hcfg habort trivial (by simp [gateOf, frameGate, framed_eq_false hnone])
  · exact exec_stateError hcfg habort hseg (by simp [gateOf, frameGate, framed_eq_false hnone])
  · exact exec_stateError hcfg habort trivial
      (by simp [gateOf, frameGate, currentClass_eq he, hsub])
  · exact exec_stateError hcfg habort (.inr rfl)
      (by simp [gateOf, frameGate, currentClass_eq he, hp2])

/-! ### Reading the registers -/

theorem exec_rdReg_of_some {sel : BitVec 8} {r : Reg} (s : State) (h : regOf sel = some r) :
    exec (.rdReg sel) s = .next (s.respond .ok (readReg s r)) := by
  simp only [exec_eq_runCommand, gateOf, effectOf, h]
  rfl

theorem exec_rdReg_of_none {sel : BitVec 8} (s : State) (h : regOf sel = none) :
    exec (.rdReg sel) s = .next (s.respond .illegalOperand 0#32) := by
  simp only [exec_eq_runCommand, gateOf, effectOf, h]
  rfl

/-- `FLAGS` bit by bit (10_state.md R37). -/
theorem getLsbD_flagsWord (s : State) (b : Nat) :
    (flagsWord s).getLsbD b =
      match b with
      | 0 => s.len != 0#16
      | 1 => s.aborted
      | 2 => s.fvalid
      | 3 => s.subc
      | 4 => s.cfgFault
      | _ => false := by
  unfold flagsWord
  match b with
  | 0 | 1 | 2 | 3 | 4 =>
    simp only [BitVec.getLsbD_setWidth, BitVec.getLsbD_append, BitVec.getLsbD_ofBool]; simp
  | b + 5 => simp

/-- A verdict reads as its code (10_state.md R26). -/
theorem readReg_verdict (s : State) :
    readReg s .verdict =
      match s.verdict with
      | .unset => 0#32
      | .passed => 1#32
      | .corrected => 2#32
      | .failed => 3#32 := by
  simp only [readReg]
  cases s.verdict <;> rfl

/-- `CAP` reads as its low 16 bits (10_state.md R36, log 9). -/
theorem readReg_cap (s : State) : readReg s .cap = BitVec.ofNat 32 (s.cfg.cap % 2 ^ 16) := by
  apply BitVec.eq_of_toNat_eq
  simp [readReg]

/-- Settles O56, register by register. -/
theorem readRegReturnsEachRegister : Obligations.ReadRegReturnsEachRegister := by
  intro s
  refine ⟨exec_rdReg_of_some s (r := .len) rfl, exec_rdReg_of_some s (r := .ccount) rfl, ?_,
    ⟨flagsWord s, exec_rdReg_of_some s (r := .flags) rfl, getLsbD_flagsWord s 0,
      getLsbD_flagsWord s 1, getLsbD_flagsWord s 2, getLsbD_flagsWord s 3,
      getLsbD_flagsWord s 4, fun b hb => ?_⟩,
    exec_rdReg_of_some s (r := .fclass) rfl, exec_rdReg_of_some s (r := .faultCause) rfl,
    exec_rdReg_of_some s (r := .faultInfo) rfl, ?_, exec_rdReg_of_some s (r := .subview) rfl,
    exec_rdReg_of_some s (r := .cfgCause) rfl, fun sel hsel => ?_⟩
  · rw [exec_rdReg_of_some s (r := .verdict) rfl, readReg_verdict]
    rfl
  · obtain ⟨k, rfl⟩ := Nat.exists_eq_add_of_le' hb
    exact getLsbD_flagsWord s (k + 5)
  · rw [exec_rdReg_of_some s (r := .cap) rfl, readReg_cap]
    rfl
  · exact exec_rdReg_of_none s
      (Option.not_isSome_iff_eq_none.mp ((regOf_isSome_iff sel).not.mpr (by omega)))

end Sys2Proof.Machine

/-!
CERTIFICATE. Bits at or past `LEN` cannot be observed (10_state.md R23, 20_memory.md R51).
-/
namespace Sys2Proof.Machine

/-! ### What a command reads

Each function that reads the buffer reads bits below a bound alone, so that two buffers which agree
below the bound give it one value. -/

/-- The two buffers agree on every bit below `n`. -/
def AgreeBelow (n : Nat) (m m' : Memory) : Prop :=
  ∀ a < n, Memory.read m a = Memory.read m' a

section
variable {m m' : Memory} {len : Nat}

theorem AgreeBelow.write (h : AgreeBelow len m m') (i : Nat) (b : Bool) :
    AgreeBelow len (Memory.write m i b) (Memory.write m' i b) := fun a ha => by
  rw [read_write, read_write, h a ha]

theorem AgreeBelow.putBits (h : AgreeBelow len m m') (data : Value) (n a : Nat) :
    AgreeBelow len (putBits data n a m) (putBits data n a m') := fun j hj => by
  rw [read_putBits, read_putBits, h j hj]

theorem AgreeBelow.flipBit (h : AgreeBelow len m m') {i : Nat} (hi : i < len) :
    AgreeBelow len (flipBit m i) (flipBit m' i) := fun a ha => by
  rw [read_flipBit, read_flipBit, h i hi, h a ha]

theorem AgreeBelow.rangeNat (h : AgreeBelow len m m') {a n : Nat} (hn : a + n ≤ len) :
    rangeNat m a n = rangeNat m' a n :=
  rangeNat_congr fun i _ hi => h i (by omega)

theorem nextSetFrom_congr (n f : Nat)
    (h : ∀ i, f ≤ i → i < f + n → Memory.read m i = Memory.read m' i) :
    nextSetFrom m n f = nextSetFrom m' n f := by
  induction n generalizing f with
  | zero => rfl
  | succ n ih =>
    rw [nextSetFrom, nextSetFrom, h f le_rfl (by omega),
      ih (f + 1) fun i h1 h2 => h i (by omega) (by omega)]

theorem AgreeBelow.nsb (h : AgreeBelow len m m') (f : Nat) : nsb m len f = nsb m' len f :=
  nextSetFrom_congr _ f fun i _ hi => h i (by omega)

theorem AgreeBelow.xorSetBits (h : AgreeBelow len m m') (stop : Nat) (entry : Nat → Nat)
    (n : Nat) (start : Option Nat) (acc : Nat) :
    xorSetBits m len stop entry n start acc = xorSetBits m' len stop entry n start acc := by
  induction n generalizing start acc with
  | zero => rfl
  | succ n ih =>
    cases start with
    | none => rfl
    | some i => rw [Machine.xorSetBits, Machine.xorSetBits, h.nsb, ih]

theorem AgreeBelow.accumulate (h : AgreeBelow len m m') (ms n : Nat) (entry : Nat → Nat)
    (acc : Nat) : accumulate m len ms n entry acc = accumulate m' len ms n entry acc := by
  rw [Machine.accumulate, Machine.accumulate, h.nsb, h.xorSetBits]

theorem AgreeBelow.crc8Run (h : AgreeBelow len m m') (poly : BitVec 8) {n a : Nat}
    (hn : a + n ≤ len) (reg : BitVec 8) : crc8Run poly m n a reg = crc8Run poly m' n a reg := by
  induction n generalizing a reg with
  | zero => rfl
  | succ n ih => rw [Machine.crc8Run, Machine.crc8Run, h a (by omega), ih (by omega)]

theorem AgreeBelow.corrResidual (h : AgreeBelow len m m') (T : CorrTable) (ms seed : Nat)
    {cs : Nat} (hcs : cs + T.width ≤ len) :
    corrResidual T m len ms cs seed = corrResidual T m' len ms cs seed := by
  simp only [Machine.corrResidual, corrAcc, h.accumulate, h.rangeNat hcs]

theorem AgreeBelow.crc9Residual (h : AgreeBelow len m m') (U : Crc9Table) (ms : Nat)
    {cs : Nat} (hcs : cs + 9 ≤ len) :
    crc9Residual U m len ms cs = crc9Residual U m' len ms cs := by
  simp only [Machine.crc9Residual, crc9Acc, h.accumulate, h.rangeNat hcs]

/-- The sync field is the first present region of a class. -/
theorem syncField_le_regionsEnd (e : SyncEntry) : e.syncOff + e.sl ≤ regionsEnd e :=
  (regionsEnd_le_iff e _).mp le_rfl (e.syncOff, e.sl) (by simp [presentRegions])

theorem AgreeBelow.syncMatches (h : AgreeBelow len m m') :
    syncMatches m len = syncMatches m' len := by
  funext e
  have hsync := syncField_le_regionsEnd e
  by_cases hfit : regionsEnd e ≤ len
  · rw [Machine.syncMatches, Machine.syncMatches, h.rangeNat (by omega)]
  · simp [Machine.syncMatches, hfit]

theorem AgreeBelow.locateClass (h : AgreeBelow len m m') (S : List SyncEntry) :
    locateClass S m len = locateClass S m' len := by
  rw [Machine.locateClass, Machine.locateClass, h.syncMatches]

end

/-! ### Two runs over buffers that agree below `LEN` -/

/-- The checks of a command never read the buffer. -/
theorem gateOf_withBuf (s : State) (m : Memory) (i : Instr) :
    gateOf (s.withBuf m) i = gateOf s i := by
  cases i <;> rfl

theorem firstRaised_withBuf (g : Gate) (s : State) (m : Memory) :
    firstRaised g (s.withBuf m) = firstRaised g s := rfl

theorem raise_withBuf (s : State) (m : Memory) (r : Raised) :
    (s.withBuf m).raise r = (s.raise r).withBuf m := by
  cases r <;> rfl

/-- The second run ends as the first but for the buffer, and the buffers agree below `LEN`. -/
def SameButBuffer (t t' : State) : Prop :=
  ∃ m', t' = t.withBuf m' ∧ AgreeBelow t.len.toNat m' t.buf

section
variable {s : State} {m : Memory}

/-- Two equal answers leave the buffers as they were. -/
theorem sameButBuffer_respond (h : AgreeBelow s.len.toNat m s.buf) {v v' : Value} (hv : v' = v) :
    SameButBuffer (s.respond .ok v) ((s.withBuf m).respond .ok v') :=
  ⟨m, by rw [hv]; rfl, h⟩

/-- Writes that leave agreeing buffers. -/
theorem sameButBuffer_withBuf {n n' : Memory} (h : AgreeBelow s.len.toNat n' n) (v : Value) :
    SameButBuffer ((s.withBuf n).respond .ok v) (((s.withBuf m).withBuf n').respond .ok v) :=
  ⟨n', rfl, h⟩

theorem sameButBuffer_corrEffect (h : AgreeBelow s.len.toNat m s.buf) {T : CorrTable}
    {ms cs seed : Half} (hfit : corrBad T s.len.toNat ms.toNat cs.toNat = false) :
    SameButBuffer (corrEffect T ms cs seed s) (corrEffect T ms cs seed (s.withBuf m)) := by
  simp only [corrBad, Bool.or_eq_false_iff, decide_eq_false_iff_not] at hfit
  have hres := h.corrResidual T ms.toNat seed.toNat (cs := cs.toNat) (by omega)
  simp only [corrEffect, withBuf_buf, withBuf_len, hres]
  split
  · exact ⟨m, rfl, h⟩
  · generalize corrResidual T s.buf s.len.toNat ms.toNat cs.toNat seed.toNat = res
    have hspec := lookupSyndrome_spec T res
    cases hp : lookupSyndrome T res with
    | none => exact ⟨m, rfl, h⟩
    | some p =>
      rw [hp] at hspec
      exact ⟨_, rfl, h.flipBit (by have := hspec.1; omega)⟩

theorem sameButBuffer_crc9Effect (h : AgreeBelow s.len.toNat m s.buf) {U : Crc9Table}
    {ms cs : Half} (hfit : crc9Bad U s.len.toNat ms.toNat cs.toNat = false) :
    SameButBuffer (crc9Effect U ms cs s) (crc9Effect U ms cs (s.withBuf m)) := by
  simp only [crc9Bad, Bool.or_eq_false_iff, decide_eq_false_iff_not] at hfit
  have hres := h.crc9Residual U ms.toNat (cs := cs.toNat) (by omega)
  simp only [crc9Effect, withBuf_buf, withBuf_len, hres]
  split
  · exact ⟨m, rfl, h⟩
  · exact ⟨m, rfl, h⟩

theorem sameButBuffer_locateEffect (h : AgreeBelow s.len.toNat m s.buf) :
    SameButBuffer (locateEffect s) (locateEffect (s.withBuf m)) := by
  simp only [locateEffect, withBuf_buf, withBuf_len, withBuf_cfg, h.locateClass]
  split
  · exact ⟨m, rfl, h⟩
  · exact ⟨m, rfl, h⟩

theorem sameButBuffer_getsubEffect (h : AgreeBelow s.len.toNat m s.buf) :
    SameButBuffer (getsubEffect s) (getsubEffect (s.withBuf m)) := by
  cases hc : s.subc with
  | true => simp only [getsubEffect, withBuf_subc, hc, if_true]; exact ⟨m, rfl, h⟩
  | false =>
    simp only [getsubEffect, withBuf_subc, hc, Bool.false_eq_true, if_false]; exact ⟨m, rfl, h⟩

/-- The effect of a command depends on the bits below `LEN` alone: its bounds check has passed. -/
theorem sameButBuffer_effectOf (h : AgreeBelow s.len.toNat m s.buf) {i : Instr}
    (hnone : firstRaised (gateOf s i) s = none) :
    SameButBuffer (effectOf s i) (effectOf (s.withBuf m) i) := by
  obtain ⟨-, -, -, -, hbounds⟩ := (firstRaised_eq_none _ s).mp hnone
  cases i with
  | bufInit len => exact ⟨[], rfl, fun _ _ => rfl⟩
  | bufPut start count data => exact sameButBuffer_withBuf (h.putBits data _ _) _
  | bitSet i => exact sameButBuffer_withBuf (h.write _ _) _
  | bitFlip i => exact sameButBuffer_withBuf (h.flipBit ((indexCheck_eq_none s i).mp hbounds)) _
  | bitGet i =>
    have hi := (indexCheck_eq_none s i).mp hbounds
    exact sameButBuffer_respond h (by rw [withBuf_buf, h _ hi])
  | bitNsb start =>
    exact sameButBuffer_respond h (by rw [withBuf_buf, withBuf_len, h.nsb])
  | bufGetr start stop w =>
    have hfit := (rangeCheck_eq_none _ _).mp hbounds
    simp only [getrBad, Bool.or_eq_false_iff, decide_eq_false_iff_not] at hfit
    exact sameButBuffer_respond h (by rw [withBuf_buf, h.rangeNat (by omega)])
  | crc8Calc start count =>
    have hfit := (rangeCheck_eq_none _ _).mp hbounds
    rw [decide_eq_false_iff_not] at hfit
    exact sameButBuffer_respond h (by rw [withBuf_buf, withBuf_cfg, h.crc8Run _ (by omega)])
  | crcCorr t ms cs seed =>
    simp only [gateOf, effectOf, withBuf_cfg] at hbounds ⊢
    cases hT : s.cfg.corrTables[t.toNat]? with
    | none => exact ⟨m, rfl, h⟩
    | some T =>
      rw [hT] at hbounds
      exact sameButBuffer_corrEffect h ((rangeCheck_eq_none _ _).mp hbounds)
  | crc9Chk t ms cs =>
    simp only [gateOf, effectOf, withBuf_cfg] at hbounds ⊢
    cases hU : s.cfg.crc9Tables[t.toNat]? with
    | none => exact ⟨m, rfl, h⟩
    | some U =>
      rw [hU] at hbounds
      exact sameButBuffer_crc9Effect h ((rangeCheck_eq_none _ _).mp hbounds)
  | frmLocate => exact sameButBuffer_locateEffect h
  | frmGetsub => exact sameButBuffer_getsubEffect h
  | opcLookup | frmHassub | frmPayload => exact sameButBuffer_respond h rfl
  | opcIsvar id | opcDesc id =>
    simp only [effectOf, withBuf_cfg]
    cases descriptorOf s.cfg id with
    | none => exact ⟨m, rfl, h⟩
    | some d => exact sameButBuffer_respond h rfl
  | rdReg sel =>
    simp only [effectOf]
    cases regOf sel with
    | none => exact ⟨m, rfl, h⟩
    | some r => exact sameButBuffer_respond h (by cases r <;> rfl)

end

/-- Settles O59: the checks do not read the buffer, and an effect whose bounds check has passed
reads only bits below `LEN`. -/
theorem bitsPastLenAreUnobservable : Obligations.BitsPastLenAreUnobservable := by
  intro i s m h
  have hgate : firstRaised (gateOf (s.withBuf m) i) (s.withBuf m) = firstRaised (gateOf s i) s := by
    rw [gateOf_withBuf, firstRaised_withBuf]
  show ∃ t m', exec i s = .next t ∧ exec i (s.withBuf m) = .next (t.withBuf m')
    ∧ AgreeBelow t.len.toNat m' t.buf
  rw [exec_eq_runCommand i s, exec_eq_runCommand i (s.withBuf m)]
  cases hr : firstRaised (gateOf s i) s with
  | some r =>
    rw [runCommand_raise hr, runCommand_raise (hgate.trans hr), raise_withBuf]
    exact ⟨_, m, rfl, rfl, by rwa [raise_len, raise_buf]⟩
  | none =>
    obtain ⟨m', heq, hagree⟩ := sameButBuffer_effectOf h hr
    rw [runCommand_effect hr, runCommand_effect (hgate.trans hr), heq]
    exact ⟨_, m', rfl, rfl, hagree⟩

end Sys2Proof.Machine

/-!
CERTIFICATE. The bit buffer as the host sees it (20_memory.md): the byte order of a transported word
(R54), the accesses that fail (R51) and those that agree or repeat (R53, R58), and the freedom of
iteration (R66).
-/
namespace Sys2Proof.Machine

/-! ### The byte order of a transported word -/

/-- Eight transported bytes put together give the word they came from (20_memory.md R54). -/
theorem bytesWord_extractLsb' (w : CmdWord) :
    bytesWord (w.extractLsb' 56 8) (w.extractLsb' 48 8) (w.extractLsb' 40 8) (w.extractLsb' 32 8)
      (w.extractLsb' 24 8) (w.extractLsb' 16 8) (w.extractLsb' 8 8) (w.extractLsb' 0 8) = w := by
  simp only [bytesWord, BitVec.extractLsb'_append_extractLsb'_eq_extractLsb' (len₁ := 8) rfl]
  exact BitVec.extractLsb'_eq_self

/-- Decoding transported bytes is decoding their word, and leaves the bytes behind it. -/
theorem decodeBytes_wordBytes_append (w : CmdWord) (rest : List Byte) :
    decodeBytes (wordBytes w ++ rest) = (decode w).map fun i => (i, rest) := by
  simp only [wordBytes, List.cons_append, List.nil_append, decodeBytes, bytesWord_extractLsb']
  cases decode w <;> rfl

/-- The `k`-th transported byte holds bits `63 - 8k` down to `56 - 8k` (20_memory.md R54). -/
theorem getElem?_wordBytes (w : CmdWord) {k : Nat} (hk : k < 8) :
    (wordBytes w)[k]? = some (w.extractLsb' (56 - 8 * k) 8) := by
  match k with
  | 0 | 1 | 2 | 3 | 4 | 5 | 6 | 7 => rfl
  | k + 8 => omega

/-- Settles O9, by the one equation of `decodeBytes` on transported bytes. -/
theorem transportedBytesDecodeAsTheWord : Obligations.TransportedBytesDecodeAsTheWord := by
  intro w rest
  refine ⟨fun k hk => getElem?_wordBytes w hk, fun i hi => ?_, fun r hr => ?_⟩
  · rw [decodeBytes_wordBytes_append, hi]; rfl
  · rw [decodeBytes_wordBytes_append, hr]; rfl

/-! ### Read-only commands -/

/-- A read-only command whose checks pass leaves its response alone (20_memory.md R58). -/
theorem Effect.eq_respond_of_readOnly {i : Instr} {s t : State} (h : Effect s i t)
    (hi : readOnly i = true) : t = s.respond .ok t.result := by
  cases h with
  | answer v => rfl
  | context | corrected | frame | cache => cases hi
  | write hw => obtain ⟨a, n, d, rfl⟩ | ⟨a, rfl⟩ | ⟨a, rfl⟩ := writesBits_eq_true hw <;> cases hi
  | passed v hv | failed v hv =>
    obtain ⟨t, a, b, c, rfl⟩ | ⟨t, a, b, rfl⟩ := validates_eq_true hv <;> cases hi

/-- No check of a command reads the response before it. -/
theorem firstRaised_gateOf_respond (i : Instr) (s : State) (st : Status) (v : Value) :
    firstRaised (gateOf (s.respond st v) i) (s.respond st v) = firstRaised (gateOf s i) s := by
  cases i <;> rfl

/-- A read-only command with legal operands answers the same whatever the response before it. -/
theorem effectOf_respond {i : Instr} {s : State} (st : Status) (v : Value)
    (hi : readOnly i = true) (hlegal : (gateOf s i).legal = true) :
    effectOf (s.respond st v) i = effectOf s i := by
  cases i with
  | bitGet | bitNsb | bufGetr | crc8Calc | opcLookup | frmHassub | frmPayload => rfl
  | opcIsvar id | opcDesc id =>
    obtain ⟨d, hd⟩ := Option.isSome_iff_exists.mp hlegal
    simp only [effectOf, respond_cfg, hd]
    rfl
  | rdReg sel =>
    obtain ⟨r, hr⟩ := Option.isSome_iff_exists.mp hlegal
    simp only [effectOf, hr]
    cases r <;> rfl
  | _ => cases hi

theorem raisedStatus_ne_ok (r : Raised) : raisedStatus r ≠ .ok := by
  intro h
  cases r <;> cases h

/-- Settles O23: an answer `OK` is the command's effect, which is the response alone and reads no
response. -/
theorem readOnlyCommandsRepeat : Obligations.ReadOnlyCommandsRepeat := by
  intro i s hi
  obtain ⟨r, -, h⟩ | ⟨hnone, h⟩ := exec_cases i s
  · exact ⟨_, h, fun hok => absurd ((raise_status s r).symm.trans hok) (raisedStatus_ne_ok r)⟩
  · obtain ⟨-, hlegal, -⟩ := (firstRaised_eq_none _ s).mp hnone
    have hanswer := (effect_effectOf hnone).eq_respond_of_readOnly hi
    have hagain : exec i (effectOf s i) = .next (effectOf s i) := by
      rw [hanswer, exec_eq_runCommand,
        runCommand_effect ((firstRaised_gateOf_respond i s _ _).trans hnone),
        effectOf_respond _ _ hi hlegal, ← hanswer]
    exact ⟨_, h, fun _ => ⟨hanswer, hagain⟩⟩

/-! ### Commands that run, and accesses that fail, in a ready state -/

/-- In a ready state a command with legal operands whose own checks pass has its effect
(60_exceptions.md R240). -/
theorem exec_of_ready {i : Instr} {s : State} (hs : Ready s) (hlegal : operandsLegal s.cfg i)
    (hstate : (gateOf s i).stateOk = true) (hbounds : (gateOf s i).bounds = none) :
    exec i s = .next (effectOf s i) := by
  obtain ⟨hcfg, habort, -⟩ := hs
  rw [exec_eq_runCommand]
  exact runCommand_effect ((firstRaised_eq_none _ s).mpr
    ⟨fun _ => hcfg, (gateOf_legal_iff s i).mpr hlegal, fun _ => habort, hstate, hbounds⟩) _

/-- In a ready state a command with legal operands whose state check passes raises what its bounds
check finds (60_exceptions.md R240, step 6). -/
theorem exec_raise_of_ready {i : Instr} {s : State} {r : Raised} (hs : Ready s)
    (hlegal : operandsLegal s.cfg i) (hstate : (gateOf s i).stateOk = true)
    (hbounds : (gateOf s i).bounds = some r) : exec i s = .next (s.raise r) := by
  obtain ⟨hcfg, habort, -⟩ := hs
  have hraised : firstRaised (gateOf s i) s = some r := by
    simp [firstRaised, hcfg, habort, (gateOf_legal_iff s i).mpr hlegal, hstate, hbounds]
  rw [exec_eq_runCommand, runCommand_raise hraised]

theorem loaded_of_ready {s : State} (hs : Ready s) : loaded s = true :=
  (loaded_eq_true s).mpr hs.loaded

theorem writePhase_of_writable {s : State} (hs : Writable s) : writePhase s = true :=
  (writePhase_eq_true s).mpr ⟨hs.1.loaded, hs.2⟩

theorem indexCheck_eq_some {s : State} {i : Half} (h : s.len.toNat ≤ i.toNat) :
    indexCheck s i = some (.indexError i) := if_pos h

theorem rangeCheck_eq_some {bad : Bool} (x : Half) (h : bad = true) :
    rangeCheck bad x = some (.rangeError x) := if_pos h

/-- What an `INDEX_ERROR` records (60_exceptions.md R236). -/
theorem raise_indexError (s : State) (x : Half) :
    s.raise (.indexError x) = fatalState s .indexError x := rfl

/-- What a `RANGE_ERROR` records (60_exceptions.md R236). -/
theorem raise_rangeError (s : State) (x : Half) :
    s.raise (.rangeError x) = fatalState s .rangeError x := rfl

/-- Settles O38: the three commands share one bounds check. -/
theorem indexErrorsAbort : Obligations.IndexErrorsAbort := by
  intro s i hs hi
  have hbounds := indexCheck_eq_some hi
  rw [← raise_indexError]
  refine ⟨exec_raise_of_ready hs trivial (loaded_of_ready hs) hbounds, fun hunset => ?_⟩
  have hphase : writePhase s = true := writePhase_of_writable ⟨hs, hunset⟩
  exact ⟨exec_raise_of_ready hs trivial hphase hbounds,
    exec_raise_of_ready hs trivial hphase hbounds⟩

/-- A `BUF_GETR` range is refused when it is reversed, passes `LEN` or is wider than `W`
(40_bit_buffer.md R107). -/
theorem getrBad_eq_true_iff (s : State) (start stop : Half) (w : BitVec 8) :
    getrBad s start stop w = true ↔ stop.toNat < start.toNat ∨ s.len.toNat ≤ stop.toNat
      ∨ w.toNat < stop.toNat - start.toNat + 1 := by
  simp [getrBad, or_assoc]

/-- A `CRC_CORR` region is refused exactly when it does not fit (41_crc_ecc.md R134). -/
theorem corrBad_eq_true_iff (T : CorrTable) (s : State) (ms cs : Half) :
    corrBad T s.len.toNat ms.toNat cs.toNat = true ↔ ¬ corrRegionFits T s ms cs := by
  simp only [corrBad, corrRegionFits, Bool.or_eq_true, decide_eq_true_eq]
  omega

/-- A `CRC9_CHK` region is refused exactly when it does not fit (41_crc_ecc.md R142). -/
theorem crc9Bad_eq_true_iff (U : Crc9Table) (s : State) (ms cs : Half) :
    crc9Bad U s.len.toNat ms.toNat cs.toNat = true ↔ ¬ crc9RegionFits U s ms cs := by
  simp only [crc9Bad, crc9RegionFits, Bool.or_eq_true, decide_eq_true_eq]
  omega

/-- Settles O39: each command's range check fails, and it is the first check that does. -/
theorem rangeErrorsAbort : Obligations.RangeErrorsAbort := by
  intro s hs
  simp only [← raise_rangeError]
  have hloaded := loaded_of_ready hs
  have hphase (h : s.verdict = .unset) : writePhase s = true :=
    writePhase_of_writable ⟨hs, h⟩
  refine ⟨fun start count data hunset hlegal hpast => ?_, fun start stop w hlegal hbad => ?_,
    fun start count hlegal hpast => ?_, fun t ms cs seed T hunset hT hseed hfit => ?_,
    fun t ms cs U hunset hU hfit => ?_⟩
  · exact exec_raise_of_ready hs hlegal (hphase hunset)
      (rangeCheck_eq_some start (decide_eq_true hpast))
  · have hrange : getrBad s start stop w = true :=
      (getrBad_eq_true_iff s start stop w).mpr
        (hbad.imp_right fun h => h.imp_right fun hwide => by omega)
    exact exec_raise_of_ready hs hlegal hloaded (rangeCheck_eq_some start hrange)
  · exact exec_raise_of_ready hs hlegal hloaded
      (rangeCheck_eq_some start (decide_eq_true hpast))
  · refine exec_raise_of_ready hs ⟨T, hT, hseed⟩ ?_ ?_ <;> simp only [gateOf, hT]
    · exact hphase hunset
    · exact rangeCheck_eq_some ms ((corrBad_eq_true_iff T s ms cs).mpr hfit)
  · refine exec_raise_of_ready hs (List.getElem?_eq_some_iff.mp hU).1 ?_ ?_ <;>
      simp only [gateOf, hU]
    · exact hphase hunset
    · exact rangeCheck_eq_some ms ((crc9Bad_eq_true_iff U s ms cs).mpr hfit)

/-! ### Writing one bit twice -/

/-- A second write of the same bit changes nothing, in canonical form. -/
theorem write_write {m : Memory} (h : Memory.wf m) (i : Nat) (b : Bool) :
    Memory.write (Memory.write m i b) i b = Memory.write m i b := by
  refine memory_ext (write_wf i b (write_wf i b h)) (write_wf i b h) fun j => ?_
  by_cases hj : j = i <;> simp [read_write, hj]

/-- A second flip undoes the first, in canonical form. -/
theorem flipBit_flipBit {m : Memory} (h : Memory.wf m) (i : Nat) :
    flipBit (flipBit m i) i = m := by
  refine memory_ext (flipBit_wf i (flipBit_wf i h)) h fun j => ?_
  by_cases hj : j = i <;> simp [read_flipBit, hj]

theorem execAll_cons {i : Instr} {s t : State} (h : exec i s = .next t) (is : List Instr) :
    execAll (i :: is) s = execAll is t := by
  rw [execAll, h]

/-- `BIT_SET` in the write phase, below `LEN` (40_bit_buffer.md R104). -/
theorem exec_bitSet {s : State} {i : Half} (hs : Writable s) (hi : i.toNat < s.len.toNat) :
    exec (.bitSet i) s = .next ((s.withBuf (Memory.write s.buf i.toNat true)).respond .ok 0#32) :=
  exec_of_ready hs.1 trivial (writePhase_of_writable hs) ((indexCheck_eq_none s i).mpr hi)

/-- `BIT_FLIP` in the write phase, below `LEN` (40_bit_buffer.md R105). -/
theorem exec_bitFlip {s : State} {i : Half} (hs : Writable s) (hi : i.toNat < s.len.toNat) :
    exec (.bitFlip i) s = .next ((s.withBuf (flipBit s.buf i.toNat)).respond .ok 0#32) :=
  exec_of_ready hs.1 trivial (writePhase_of_writable hs) ((indexCheck_eq_none s i).mpr hi)

/-- Settles O34: after the first of the two commands the context is still writable, and the buffer
operations cancel or repeat. -/
theorem flipsCancelAndSetIsIdempotent : Obligations.FlipsCancelAndSetIsIdempotent := by
  intro s i hs hwf hi
  constructor
  · have hagain := exec_bitFlip (s := (s.withBuf (flipBit s.buf i.toNat)).respond .ok 0#32) hs hi
    rw [respond_buf, withBuf_buf, flipBit_flipBit hwf] at hagain
    rw [execAll_cons (exec_bitFlip hs hi), execAll_cons hagain]
    rfl
  · have hagain :=
      exec_bitSet (s := (s.withBuf (Memory.write s.buf i.toNat true)).respond .ok 0#32) hs hi
    rw [respond_buf, withBuf_buf, write_write hwf] at hagain
    rw [execAll_cons (exec_bitSet hs hi), execAll_cons hagain, execAll_cons (exec_bitSet hs hi)]
    rfl

/-! ### Reads of one bit and of a range -/

/-- Integer bit `k` of a range of `n` bits is the `k`-th bit before its last one
(20_memory.md R52). -/
theorem testBit_rangeNat (m : Memory) (a : Nat) {n k : Nat} (hk : k < n) :
    (rangeNat m a n).testBit k = Memory.read m (a + (n - 1 - k)) := by
  induction n generalizing k with
  | zero => omega
  | succ n ih =>
    have hbit : rangeNat m a (n + 1) = Nat.bit (Memory.read m (a + n)) (rangeNat m a n) := by
      rw [rangeNat_succ, Nat.bit_val]
    rw [hbit]
    cases k with
    | zero => rw [Nat.testBit_bit_zero]; rfl
    | succ k =>
      rw [Nat.testBit_bit_succ, ih (by omega)]
      congr 2
      omega

/-- `BIT_GET` below `LEN` (40_bit_buffer.md R103). -/
theorem exec_bitGet {s : State} {i : Half} (hs : Ready s) (hi : i.toNat < s.len.toNat) :
    exec (.bitGet i) s
      = .next (s.respond .ok ((BitVec.ofBool (Memory.read s.buf i.toNat)).setWidth 32)) :=
  exec_of_ready hs trivial (loaded_of_ready hs) ((indexCheck_eq_none s i).mpr hi)

/-- `BUF_GETR` of a range below `LEN` that `W` can hold (40_bit_buffer.md R107). -/
theorem exec_bufGetr {s : State} {start stop : Half} {w : BitVec 8} (hs : Ready s)
    (hw : 1 ≤ w.toNat ∧ w.toNat ≤ 32) (hrev : start.toNat ≤ stop.toNat)
    (hlen : stop.toNat < s.len.toNat) (hfit : stop.toNat - start.toNat + 1 ≤ w.toNat) :
    exec (.bufGetr start stop w) s
      = .next (s.respond .ok
          (BitVec.ofNat 32 (rangeNat s.buf start.toNat (stop.toNat - start.toNat + 1)))) := by
  have hgood : getrBad s start stop w = false := by
    rw [Bool.eq_false_iff, ne_eq, getrBad_eq_true_iff]
    omega
  exact exec_of_ready hs hw (loaded_of_ready hs) ((rangeCheck_eq_none _ _).mpr hgood)

/-- Settles O37: both reads give the bit at index `i`. -/
theorem mixedWidthReadsAgree : Obligations.MixedWidthReadsAgree := by
  intro s a b i w hs hw1 hw2 hai hib hlen hfit
  refine ⟨_, _, exec_bufGetr hs ⟨hw1, hw2⟩ (by omega) hlen hfit, exec_bitGet hs (by omega), ?_⟩
  have hindex : a.toNat + (b.toNat - a.toNat + 1 - 1 - (b.toNat - i.toNat)) = i.toNat := by omega
  have hbit : (BitVec.ofNat 32 (rangeNat s.buf a.toNat (b.toNat - a.toNat + 1))).getLsbD
      (b.toNat - i.toNat) = Memory.read s.buf i.toNat := by
    rw [BitVec.getLsbD_ofNat, testBit_rangeNat _ _ (by omega), hindex,
      decide_eq_true (by omega), Bool.true_and]
  rw [hbit]
  cases Memory.read s.buf i.toNat <;> rfl

/-! ### Sparse and dense iteration -/

/-- The next set bit from an index below `LEN`, one place at a time. -/
theorem nsb_of_lt (m : Memory) {len f : Nat} (hf : f < len) :
    nsb m len f = if Memory.read m f then some f else nsb m len (f + 1) := by
  obtain ⟨n, hn⟩ := Nat.exists_eq_add_of_lt hf
  have hrest : len - f = n + 1 := by omega
  have hrest' : len - (f + 1) = n := by omega
  rw [nsb, nsb, hrest, hrest', nextSetFrom]

/-- The next set bit lies at or past the index the search starts from. -/
theorem le_of_nsb_eq_some {m : Memory} {len f i : Nat} (h : nsb m len f = some i) : f ≤ i := by
  have hspec := nextSetFrom_spec m (len - f) f
  rw [nsb] at h
  rw [h] at hspec
  exact hspec.1

/-- The loop ends where no set bit below `stop` is left. -/
theorem xorSetBits_nsb_stop (m : Memory) (len stop : Nat) (entry : Nat → Nat) (fuel acc : Nat) :
    xorSetBits m len stop entry fuel (nsb m len stop) acc = acc := by
  cases fuel with
  | zero => rfl
  | succ fuel =>
    cases hn : nsb m len stop with
    | none => rfl
    | some i => rw [xorSetBits, if_neg (by have := le_of_nsb_eq_some hn; omega)]

/-- A dense scan takes the first bit of the span, then scans the rest. -/
theorem denseXor_succ (m : Memory) (ms n : Nat) (entry : Nat → Nat) (acc : Nat) :
    denseXor m ms (n + 1) entry acc =
      denseXor m (ms + 1) n (fun k => entry (k + 1))
        (if Memory.read m ms then acc ^^^ entry 0 else acc) := by
  simp only [denseXor, List.range_succ_eq_map, List.foldl_cons, List.foldl_map, Nat.succ_eq_add_one,
    Nat.add_zero, Nat.add_assoc, Nat.add_comm 1]

/-- The loop from the next set bit at or past `f` is the dense scan of the `k` bits from `f`: the
rounds left are at least the bits left (log 16). -/
theorem xorSetBits_eq_denseXor (m : Memory) {len f k fuel : Nat} (entry : Nat → Nat) (acc : Nat)
    (hfuel : k ≤ fuel) (hlen : f + k ≤ len) :
    xorSetBits m len (f + k) entry fuel (nsb m len f) acc
      = denseXor m f k (fun j => entry (f + j)) acc := by
  induction k generalizing f fuel acc with
  | zero => exact xorSetBits_nsb_stop m len f entry fuel acc
  | succ k ih =>
    have hstop : f + (k + 1) = f + 1 + k := by omega
    have hentry : (fun j => entry (f + (j + 1))) = fun j => entry (f + 1 + j) := by
      funext j; congr 1; omega
    rw [nsb_of_lt m (by omega), denseXor_succ, hentry, hstop]
    cases Memory.read m f with
    | false => exact ih acc (by omega) (by omega)
    | true =>
      obtain ⟨fuel, rfl⟩ := Nat.exists_eq_add_of_le' (show 1 ≤ fuel by omega)
      rw [if_pos rfl, xorSetBits, if_pos (by omega)]
      exact ih (acc ^^^ entry f) (by omega) (by omega)

/-- Settles O40: the loop has as many rounds as the region has bits. -/
theorem sparseIterationEqualsDenseScan : Obligations.SparseIterationEqualsDenseScan := by
  intro m len ms n entry acc hfit
  exact xorSetBits_eq_denseXor m entry acc le_rfl hfit

end Sys2Proof.Machine

/-!
CERTIFICATE. The command encoding (30_encoding.md): the decoder and the encoder are inverse to each
other (R71 to R74), the words that are refused are those of R76, and the worked encodings of R79
follow.
-/
namespace Sys2Proof.Machine

/-! ### The reserved fields of a word -/

/-- A word is put together from its fields (30_encoding.md R71). -/
theorem assembleDABC_fields (w : CmdWord) :
    assembleDABC (wordOpc w) (wordD w) (wordA w) (wordB w) (wordC w) = w := by
  simp only [assembleDABC, wordOpc, wordD, wordA, wordB, wordC,
    BitVec.extractLsb'_append_extractLsb'_eq_extractLsb']
  exact BitVec.extractLsb'_eq_self

/-- A word is put together from its fields, in the form with `V` (30_encoding.md R71). -/
theorem assembleDAV_fields (w : CmdWord) :
    assembleDAV (wordOpc w) (wordD w) (wordA w) (wordV w) = w := by
  simp only [assembleDAV, wordOpc, wordD, wordA, wordV,
    BitVec.extractLsb'_append_extractLsb'_eq_extractLsb']
  exact BitVec.extractLsb'_eq_self

/-- The word with the reserved fields of its format at zero (30_encoding.md R73). -/
def clearReserved (w : CmdWord) : Format → CmdWord
  | .n => assembleDABC (wordOpc w) 0#8 0#16 0#16 0#16
  | .a => assembleDABC (wordOpc w) 0#8 (wordA w) 0#16 0#16
  | .d => assembleDABC (wordOpc w) (wordD w) 0#16 0#16 0#16
  | .v => assembleDAV (wordOpc w) 0#8 0#16 (wordV w)
  | .ab => assembleDABC (wordOpc w) 0#8 (wordA w) (wordB w) 0#16
  | .dab => assembleDABC (wordOpc w) (wordD w) (wordA w) (wordB w) 0#16
  | .dabc => assembleDABC (wordOpc w) (wordD w) (wordA w) (wordB w) (wordC w)
  | .dav => assembleDAV (wordOpc w) (wordD w) (wordA w) (wordV w)

/-- Masking a word masks its fields. -/
theorem and_assembleDABC (w : CmdWord) (o d : BitVec 8) (a b c : Half) :
    w &&& assembleDABC o d a b c = assembleDABC (wordOpc w &&& o) (wordD w &&& d) (wordA w &&& a)
      (wordB w &&& b) (wordC w &&& c) := by
  rw [← assembleDABC_and, assembleDABC_fields]

/-- Masking a word masks its fields, in the form with `V`. -/
theorem and_assembleDAV (w : CmdWord) (o d : BitVec 8) (a : Half) (v : Value) :
    w &&& assembleDAV o d a v
      = assembleDAV (wordOpc w &&& o) (wordD w &&& d) (wordA w &&& a) (wordV w &&& v) := by
  rw [← assembleDAV_and, assembleDAV_fields]

/-- The bits of a format that are not reserved: `OPC` and its operand fields
(30_encoding.md R73). -/
def keptMask : Format → CmdWord
  | .n => assembleDABC (.allOnes 8) 0#8 0#16 0#16 0#16
  | .a => assembleDABC (.allOnes 8) 0#8 (.allOnes 16) 0#16 0#16
  | .d => assembleDABC (.allOnes 8) (.allOnes 8) 0#16 0#16 0#16
  | .v => assembleDAV (.allOnes 8) 0#8 0#16 (.allOnes 32)
  | .ab => assembleDABC (.allOnes 8) 0#8 (.allOnes 16) (.allOnes 16) 0#16
  | .dab => assembleDABC (.allOnes 8) (.allOnes 8) (.allOnes 16) (.allOnes 16) 0#16
  | .dabc => assembleDABC (.allOnes 8) (.allOnes 8) (.allOnes 16) (.allOnes 16) (.allOnes 16)
  | .dav => assembleDAV (.allOnes 8) (.allOnes 8) (.allOnes 16) (.allOnes 32)

theorem keptMask_eq_not_reservedMask (f : Format) : keptMask f = ~~~reservedMask f := by
  cases f <;> decide

theorem and_keptMask (w : CmdWord) (f : Format) : w &&& keptMask f = clearReserved w f := by
  cases f <;> simp only [keptMask, clearReserved, and_assembleDABC, and_assembleDAV,
    BitVec.and_allOnes, BitVec.and_zero]

/-- The reserved fields of a word are zero exactly when clearing them changes nothing. -/
theorem and_reservedMask_eq_zero_iff (w : CmdWord) (f : Format) :
    w &&& reservedMask f = 0#64 ↔ clearReserved w f = w := by
  rw [← and_keptMask, keptMask_eq_not_reservedMask]
  constructor <;> intro h
  · calc w &&& ~~~reservedMask f
        = w &&& ~~~reservedMask f ||| w &&& reservedMask f := by rw [h, BitVec.or_zero]
      _ = w := by ext i hi; simp; grind
  · rw [← h, BitVec.and_assoc]; simp

/-! ### The decoder by the rows of the opcode map -/

/-- A word of an accepted format decodes to its command when its reserved fields are zero. -/
theorem acceptFormat_eq_ok_iff {f : Format} {m : String} {w : CmdWord} {i j : Instr} :
    acceptFormat f m w i = .ok j ↔ clearReserved w f = w ∧ i = j := by
  rw [← and_reservedMask_eq_zero_iff, acceptFormat]
  by_cases h : w &&& reservedMask f = 0#64 <;> simp [h]

/-- A word of an assigned `OPC` is refused exactly when a reserved field is not zero
(30_encoding.md R76 (b)). -/
theorem acceptFormat_eq_error_iff {f : Format} {m : String} {w : CmdWord} {i : Instr} :
    (∃ r, acceptFormat f m w i = .error r) ↔ w &&& reservedMask f ≠ 0#64 := by
  rw [acceptFormat]
  by_cases h : w &&& reservedMask f = 0#64 <;> simp [h]

/-- Every word is of one row of the opcode map, whose command has the word's operand fields, or its
`OPC` is not assigned (30_encoding.md R74, R76 (a)). -/
theorem decode_cases (w : CmdWord) :
    (∃ f m i, decode w = acceptFormat f m w i ∧ assignedFormat (wordOpc w).toNat = some f
        ∧ encode i = clearReserved w f)
      ∨ (decode w = .error (.unassignedOpcode (wordOpc w))
        ∧ assignedFormat (wordOpc w).toNat = none) := by
  unfold decode
  split
  case h_19 =>
    refine .inr ⟨rfl, List.lookup_eq_none_iff.mpr ?_⟩
    simp_all
  all_goals
    rename_i hopc
    have hword := congrArg (BitVec.ofNat 8) hopc
    rw [BitVec.ofNat_toNat, BitVec.setWidth_eq] at hword
    exact .inl ⟨_, _, _, rfl, by rw [hopc]; rfl, by simp only [encode, clearReserved, hword]⟩

/-- The word of a command has zero reserved fields (30_encoding.md R73). -/
theorem clearReserved_encode (i : Instr) : clearReserved (encode i) (formatOf i) = encode i := by
  cases i <;> simp only [encode, formatOf, clearReserved, wordOpc_assembleDABC,
    wordD_assembleDABC, wordA_assembleDABC, wordB_assembleDABC, wordC_assembleDABC,
    wordOpc_assembleDAV, wordD_assembleDAV, wordA_assembleDAV, wordV_assembleDAV]

/-- The decoder reads the word of a command by the command's own row: its `OPC` selects the row, and
its operand fields are the operands (30_encoding.md R71, R74). -/
theorem decode_encode_eq_acceptFormat (i : Instr) :
    ∃ m, decode (encode i) = acceptFormat (formatOf i) m (encode i) i := by
  cases i <;> exact ⟨_, by
    simp only [decode, encode, wordOpc_assembleDABC, wordD_assembleDABC, wordA_assembleDABC,
      wordB_assembleDABC, wordC_assembleDABC, wordOpc_assembleDAV, wordD_assembleDAV,
      wordA_assembleDAV, wordV_assembleDAV]
    rfl⟩

/-- Settles O5: the word of a command is read by the command's own row, which accepts it because its
reserved fields are zero. -/
theorem decodeOfEncodedCommand : Obligations.DecodeOfEncodedCommand := by
  intro i
  obtain ⟨m, hrow⟩ := decode_encode_eq_acceptFormat i
  exact hrow.trans (acceptFormat_eq_ok_iff.mpr ⟨clearReserved_encode i, rfl⟩)

/-- Settles O6: a word that decodes has zero reserved fields, so it is its `OPC` and its operand
fields alone. -/
theorem encodeOfDecodedWord : Obligations.EncodeOfDecodedWord := by
  intro w i h
  obtain ⟨f, m, j, hrow, -, hencode⟩ | ⟨hrow, -⟩ := decode_cases w <;> rw [hrow] at h
  · obtain ⟨hclear, rfl⟩ := acceptFormat_eq_ok_iff.mp h
    exact hencode.trans hclear
  · cases h

/-! ### Illegal encodings -/

/-- The gaps of the opcode map are the values of 30_encoding.md R76 (a). -/
theorem assignedFormat_eq_none_iff {opc : Nat} (h : opc < 256) :
    assignedFormat opc = none ↔ unassignedOpc opc := by
  simp only [assignedFormat, List.lookup_eq_none_iff, List.forall_mem_cons, List.not_mem_nil,
    false_implies, implies_true, and_true, bne_iff_ne]
  omega

/-- Settles O7: a word whose `OPC` has a row is refused for a reserved field alone, and one whose
`OPC` has none is always refused. -/
theorem illegalEncodingsAreThose : Obligations.IllegalEncodingsAreThose := by
  refine ⟨fun w => ?_, ⟨_, rfl⟩, fun s => rfl⟩
  rw [← assignedFormat_eq_none_iff (wordOpc w).isLt]
  simp only [BitVec.and_assoc]
  obtain ⟨f, m, i, hrow, hf, -⟩ | ⟨hrow, hnone⟩ := decode_cases w
  · rw [hrow, acceptFormat_eq_error_iff, hf]
    simp [reservedMask]
  · rw [hrow]
    exact iff_of_true ⟨_, rfl⟩ (.inl hnone)

/-- Settles O4: of the four kinds of step only the refusal fits the word. -/
theorem illegalWordAnswersIllegalCommand : Obligations.IllegalWordAnswersIllegalCommand := by
  intro s w rest r hport hdecode
  obtain ⟨hs, -⟩ | ⟨c, rest', hs, -⟩ | ⟨w', rest', i, hs, hi, -⟩ | ⟨w', rest', r', hs, -, hstep⟩ :=
    step_cases s <;> cases hport.symm.trans hs
  · cases hdecode.symm.trans hi
  · exact hstep

/-! ### The worked encodings -/

/-- Settles O8: each word is the command's encoding, so it decodes to the command. -/
theorem workedEncodings : Obligations.WorkedEncodings := by
  have hboth {i : Instr} {w : CmdWord} (h : encode i = w) : decode w = .ok i ∧ encode i = w :=
    ⟨h ▸ decodeOfEncodedCommand i, h⟩
  simp only [Obligations.WorkedEncodings, List.forall_mem_cons, List.not_mem_nil, false_implies,
    implies_true, and_true]
  exact ⟨hboth rfl, hboth rfl, hboth rfl, hboth rfl, hboth rfl, hboth rfl, hboth rfl, hboth rfl⟩

/-- Settles O10, line by line: the assembler gives the command of R79, and its encoding is the
word. -/
theorem assemblerGivesWorkedEncodings : Obligations.AssemblerGivesWorkedEncodings := by
  simp only [Obligations.AssemblerGivesWorkedEncodings, List.forall_mem_cons, List.not_mem_nil,
    false_implies, implies_true, and_true]
  exact ⟨by decide, by decide, by decide, by decide, by decide, by decide, by decide, by decide⟩

end Sys2Proof.Machine

/-!
CERTIFICATE. Operands outside their legal sets (30_encoding.md R75, 60_exceptions.md R240 step 3),
and the pseudo-command `LOAD` (R78) as bulk writes put one behind the other.
-/
namespace Sys2Proof.Machine

/-! ### Illegal operands -/

/-- `RD_REG` is the one command that runs in a faulty configuration (60_exceptions.md R238). -/
theorem configOk_of_valid_or_rdReg {i : Instr} {s : State}
    (h : s.cfgFault = false ∨ ∃ sel, i = .rdReg sel) :
    ((gateOf s i).needsConfig && s.cfgFault) = false := by
  obtain h | ⟨sel, rfl⟩ := h
  · rw [h, Bool.and_false]
  · rfl

/-- An illegal operand is answered before any check of the frame context
(60_exceptions.md R240, step 3). -/
theorem exec_illegalOperand {i : Instr} {s : State}
    (hcfg : s.cfgFault = false ∨ ∃ sel, i = .rdReg sel) (hlegal : ¬ operandsLegal s.cfg i) :
    exec i s = .next { s with status := .illegalOperand, result := 0#32 } := by
  rw [← gateOf_legal_iff, Bool.not_eq_true] at hlegal
  have hraised : firstRaised (gateOf s i) s = some .illegalOperand := by
    simp [firstRaised, configOk_of_valid_or_rdReg hcfg, hlegal]
  rw [exec_eq_runCommand, runCommand_raise hraised]
  rfl

/-- Legal operands are well-formed: the sets of 30_encoding.md R75 only narrow with a
configuration. -/
theorem wellFormed_of_operandsLegal {c : Cfg} {i : Instr} (h : operandsLegal c i) :
    i.wellFormed = true := by
  cases i with
  | bufInit len => exact decide_eq_true h.1
  | bufPut start count data => simpa [Instr.wellFormed, operandsLegal, and_assoc] using h
  | bufGetr start stop w => simpa [Instr.wellFormed, operandsLegal] using h
  | crc8Calc start count => exact decide_eq_true h
  | opcIsvar id | opcDesc id => exact decide_eq_true (h.elim (fun h => by omega) And.right)
  | frmPayload seg => obtain rfl | rfl := h <;> rfl
  | rdReg sel => exact decide_eq_true h
  | bitGet | bitSet | bitFlip | bitNsb | crcCorr | crc9Chk | opcLookup | frmLocate | frmHassub
  | frmGetsub => rfl

/-- A bounds check raises an index or a range error only (60_exceptions.md R236). -/
theorem frameFatal_of_bounds {i : Instr} {s : State} {r : Raised}
    (h : (gateOf s i).bounds = some r) : frameFatal r = true := by
  have hindex {j : Half} (h : indexCheck s j = some r) : frameFatal r = true := by
    unfold indexCheck at h
    split at h <;> cases h
    rfl
  have hrange {bad : Bool} {x : Half} (h : rangeCheck bad x = some r) : frameFatal r = true := by
    unfold rangeCheck at h
    split at h <;> cases h
    rfl
  cases i with
  | bitGet | bitSet | bitFlip => exact hindex h
  | bufPut | bufGetr | crc8Calc => exact hrange h
  | crcCorr t =>
    simp only [gateOf] at h
    cases hT : s.cfg.corrTables[t.toNat]? <;> rw [hT] at h
    · cases h
    · exact hrange h
  | crc9Chk t =>
    simp only [gateOf] at h
    cases hU : s.cfg.crc9Tables[t.toNat]? <;> rw [hU] at h
    · cases h
    · exact hrange h
  | bufInit | bitNsb | opcLookup | opcIsvar | opcDesc | frmLocate | frmHassub | frmGetsub
  | frmPayload | rdReg => cases h

/-- Only the operand check answers `ILLEGAL_OPERAND`. -/
theorem raised_ne_illegalOperand {i : Instr} {s : State} {r : Raised}
    (hlegal : operandsLegal s.cfg i) (h : firstRaised (gateOf s i) s = some r) :
    raisedStatus r ≠ .illegalOperand := by
  rcases firstRaised_eq_some h with ⟨rfl, -⟩ | ⟨-, hg⟩ | ⟨rfl, -⟩ | ⟨rfl, -⟩ | ⟨hb, -⟩
  · decide
  · exact absurd ((gateOf_legal_iff s i).mpr hlegal) (Bool.eq_false_iff.mp hg)
  · decide
  · decide
  · have hfatal := frameFatal_of_bounds hb
    cases r with
    | indexError | rangeError => exact Status.noConfusion
    | _ => cases hfatal

/-- A command all of whose checks pass answers `OK`. -/
theorem Effect.status_eq_ok {i : Instr} {s t : State} (h : Effect s i t) : t.status = .ok := by
  cases h <;> rfl

/-- Settles O18: the operand check comes before those of the frame context, and no other check
answers `ILLEGAL_OPERAND`. -/
theorem illegalOperandsAreAnswered : Obligations.IllegalOperandsAreAnswered := by
  intro i s hcfg
  refine ⟨exec_illegalOperand hcfg, fun hill hlegal => ?_, fun hlegal => ?_⟩
  · exact Bool.eq_false_iff.mp hill (wellFormed_of_operandsLegal hlegal)
  · obtain ⟨r, hr, h⟩ | ⟨hnone, h⟩ := exec_cases i s
    · exact ⟨_, h, raise_status s r ▸ raised_ne_illegalOperand hlegal hr⟩
    · exact ⟨_, h, (effect_effectOf hnone).status_eq_ok ▸ Status.noConfusion⟩

/-! ### `LOAD` -/

/-- From `m` to `m'` the `n` bits from index `a` become the value `v`, MSB first, and every other
bit stays. -/
def PutsValue (m m' : Memory) (a n v : Nat) : Prop :=
  rangeNat m' a n = v ∧ ∀ i, (i < a ∨ a + n ≤ i) → Memory.read m' i = Memory.read m i

/-- A range of two parts is the first part shifted over the second (00_scope.md R12). -/
theorem rangeNat_add (m : Memory) (a p q : Nat) :
    rangeNat m a (p + q) = rangeNat m a p * 2 ^ q + rangeNat m (a + p) q := by
  induction q with
  | zero => simp [rangeNat]
  | succ q ih => rw [← Nat.add_assoc, rangeNat_succ, rangeNat_succ, ih, Nat.add_assoc]; ring

/-- A bulk write puts the low bits of its data (40_bit_buffer.md R102). -/
theorem putsValue_putBits (data : Value) (n a : Nat) (m : Memory) :
    PutsValue m (putBits data n a m) a n (data.toNat % 2 ^ n) := by
  refine ⟨Nat.eq_of_testBit_eq fun k => ?_, fun i hi => ?_⟩
  · rw [Nat.testBit_mod_two_pow]
    by_cases hk : k < n
    · have hplace : n - 1 - (a + (n - 1 - k) - a) = k := by omega
      rw [testBit_rangeNat _ _ hk, read_putBits, if_pos (by omega), hplace, decide_eq_true hk,
        Bool.true_and, BitVec.testBit_toNat]
    · rw [decide_eq_false hk, Bool.false_and]
      exact Nat.testBit_lt_two_pow ((rangeNat_lt _ a n).trans_le
        (Nat.pow_le_pow_right two_pos (by omega)))
  · rw [read_putBits, if_neg (by omega)]

/-- Two values put one behind the other are one value. -/
theorem PutsValue.append {m m₁ m₂ : Memory} {a p q v u : Nat} (h₁ : PutsValue m m₁ a p v)
    (h₂ : PutsValue m₁ m₂ (a + p) q u) : PutsValue m m₂ a (p + q) (v * 2 ^ q + u) := by
  obtain ⟨hv, hframe₁⟩ := h₁
  obtain ⟨hu, hframe₂⟩ := h₂
  have hkept : rangeNat m₂ a p = v :=
    (rangeNat_congr fun i _ hi => hframe₂ i (.inl hi)).trans hv
  refine ⟨by rw [rangeNat_add, hkept, hu], fun i hi => ?_⟩
  rw [hframe₂ i (by omega), hframe₁ i (by omega)]

theorem asField_eq_some {n x : Nat} {a : BitVec n} (h : asField n x = some a) : a.toNat = x := by
  unfold asField at h
  split at h <;> cases h
  exact Nat.mod_eq_of_lt ‹_›

/-- `BUF_PUT` with legal operands in the write phase, within `LEN` (40_bit_buffer.md R102). -/
theorem exec_bufPut {s : State} {start : Half} {count : BitVec 8} {data : Value} (hs : Writable s)
    (hlegal : operandsLegal s.cfg (.bufPut start count data))
    (hfit : start.toNat + count.toNat ≤ s.len.toNat) :
    exec (.bufPut start count data) s
      = .next ((s.withBuf (putBits data count.toNat start.toNat s.buf)).respond .ok 0#32) :=
  exec_of_ready hs.1 hlegal (writePhase_of_writable hs)
    ((rangeCheck_eq_none _ _).mpr (decide_eq_false (by omega)))

/-- One chunk of `LOAD`: `n` bits of data, with `1 ≤ n ≤ 32`, at a start that is a field value. -/
theorem exec_chunk {s : State} {a : Half} {n data : Nat} (hs : Writable s) (hn1 : 1 ≤ n)
    (hn32 : n ≤ 32) (hdata : data < 2 ^ n) (hfit : a.toNat + n ≤ s.len.toNat) :
    ∃ m, exec (.bufPut a (BitVec.ofNat 8 n) (BitVec.ofNat 32 data)) s
        = .next ((s.withBuf m).respond .ok 0#32) ∧ PutsValue s.buf m a.toNat n data := by
  have hcount : (BitVec.ofNat 8 n).toNat = n := Nat.mod_eq_of_lt (by omega)
  have hvalue : (BitVec.ofNat 32 data).toNat = data :=
    Nat.mod_eq_of_lt (hdata.trans_le (Nat.pow_le_pow_right two_pos hn32))
  have hexec := exec_bufPut (start := a) (count := BitVec.ofNat 8 n)
    (data := BitVec.ofNat 32 data) hs (by simp only [operandsLegal, hcount, hvalue]; omega)
    (by omega)
  have hput := putsValue_putBits (BitVec.ofNat 32 data) n a.toNat s.buf
  rw [hvalue, Nat.mod_eq_of_lt hdata] at hput
  rw [hcount] at hexec
  exact ⟨_, hexec, hput⟩

/-- The chunks of `LOAD` put the low `n` bits of the value, from the most significant chunk down
(30_encoding.md R78). -/
theorem execAll_loadChunks {value k start n : Nat} {is : List Instr} {s : State}
    (h : loadChunks value k start n = some is) (hn : 1 ≤ n) (hs : Writable s)
    (hfit : start + n ≤ s.len.toNat) :
    ∃ m, execAll is s = .next ((s.withBuf m).respond .ok 0#32)
      ∧ PutsValue s.buf m start n (value % 2 ^ n) := by
  induction k generalizing start n is s with
  | zero => cases h
  | succ k ih =>
    rw [loadChunks] at h
    obtain ⟨a, ha, h⟩ := Option.bind_eq_some_iff.mp h
    obtain rfl := asField_eq_some ha
    split at h
    · cases h
      obtain ⟨m, hexec, hput⟩ := exec_chunk (data := value % 2 ^ n) hs hn ‹_›
        (Nat.mod_lt _ (Nat.two_pow_pos n)) hfit
      exact ⟨m, by rw [execAll_cons hexec, execAll], hput⟩
    · obtain ⟨rest, hrest, rfl⟩ := Option.map_eq_some_iff.mp h
      obtain ⟨q, rfl⟩ := Nat.exists_eq_add_of_le (show 32 ≤ n by omega)
      rw [Nat.add_sub_cancel_left] at hrest ⊢
      obtain ⟨m, hexec, hput⟩ := exec_chunk (a := a) (data := value / 2 ^ q % 2 ^ 32) hs
        (by omega : 1 ≤ 32) le_rfl (Nat.mod_lt _ (Nat.two_pow_pos 32)) (by omega)
      obtain ⟨m', hexec', hput'⟩ :=
        ih (s := (s.withBuf m).respond .ok 0#32) hrest (by omega) hs
          (show a.toNat + 32 + q ≤ s.len.toNat by omega)
      have hvalue : value / 2 ^ q % 2 ^ 32 * 2 ^ q + value % 2 ^ q = value % 2 ^ (32 + q) := by
        rw [Nat.add_comm 32, Nat.pow_add, Nat.mod_mul]; ring
      exact ⟨m', by rw [execAll_cons hexec, hexec']; rfl, hvalue ▸ hput.append hput'⟩

/-- Settles O11: `LOAD` expands to its chunks, and the value has no bit above its `n`. -/
theorem loadPutsTheValue : Obligations.LoadPutsTheValue := by
  intro s start n value is hs hfit hexpand
  simp only [expandPseudo, Option.ite_none_right_eq_some] at hexpand
  obtain ⟨⟨hn, hvalue⟩, hchunks⟩ := hexpand
  obtain ⟨m, hexec, hrange, hframe⟩ := execAll_loadChunks hchunks (by omega) hs hfit
  exact ⟨m, hexec, hrange.trans (Nat.mod_eq_of_lt hvalue), hframe⟩

end Sys2Proof.Machine

/-!
CERTIFICATE. The bit buffer commands (40_bit_buffer.md R100 to R107): what each answers and what it
leaves of the buffer, from the rule of its run and the law of its buffer operation.
-/
namespace Sys2Proof.Machine

/-! ### A new frame context -/

/-- `BUF_INIT` with a legal length runs in every frame context, an aborted one too
(40_bit_buffer.md R100, 60_exceptions.md R237). -/
theorem exec_bufInit {s : State} {len : Half} (hcfg : s.cfgFault = false) (hlen : 1 ≤ len.toNat)
    (hcap : len.toNat ≤ s.cfg.cap) :
    exec (.bufInit len) s = .next ((s.newContext len).respond .ok (len.setWidth 32)) := by
  have hlegal : lenLegal s.cfg len = true := by simp [lenLegal, hlen, hcap]
  rw [exec_eq_runCommand]
  exact runCommand_effect ((firstRaised_freeGate_eq_none _ s).mpr ⟨hcfg, hlegal⟩) _

/-- Settles O30: the new context has the empty buffer, which reads 0 everywhere. -/
theorem bufInitStartsAContext : Obligations.BufInitStartsAContext := by
  intro s len hcfg hlen hcap
  exact ⟨[], exec_bufInit hcfg hlen hcap, read_nil⟩

/-! ### Writing the buffer -/

/-- Settles O31: the span and its frame are the two branches of the read after a bulk write. -/
theorem bufPutWritesItsSpan : Obligations.BufPutWritesItsSpan := by
  intro s start count data hs hcount1 hcount32 hdata hfit
  refine ⟨putBits data count.toNat start.toNat s.buf,
    exec_bufPut hs ⟨hcount1, hcount32, hdata⟩ hfit,
    fun k hk => ?_, fun a ha => ?_, putBits_wf _ _ _⟩
  · rw [read_putBits, if_pos (by omega), Nat.add_sub_cancel_left]
  · rw [read_putBits, if_neg (by omega)]

/-- Settles O33: each command makes one write, at index `i`. -/
theorem bitSetAndFlipWriteOneBit : Obligations.BitSetAndFlipWriteOneBit := by
  intro s i hs hi
  refine ⟨⟨Memory.write s.buf i.toNat true, exec_bitSet hs hi, read_write _ _ _⟩,
    ⟨flipBit s.buf i.toNat, exec_bitFlip hs hi, fun a => ?_⟩⟩
  by_cases ha : a = i.toNat <;> simp [read_flipBit, ha]

/-! ### Reading one bit and a range -/

/-- Settles O32: the result is the bit itself, zero-extended. -/
theorem bitGetReturnsTheBit : Obligations.BitGetReturnsTheBit := by
  intro s i hs hi
  rw [exec_bitGet hs hi]
  cases Memory.read s.buf i.toNat <;> rfl

/-- A range as the sum of its bits by their weights, the first bit the most significant
(00_scope.md R12). -/
theorem rangeNat_eq_sum (m : Memory) (a n : Nat) :
    rangeNat m a n =
      ((List.range n).map fun k => (Memory.read m (a + k)).toNat * 2 ^ (n - 1 - k)).sum := by
  induction n with
  | zero => rfl
  | succ n ih =>
    have hdouble : ∀ k ∈ List.range n, 2 * ((Memory.read m (a + k)).toNat * 2 ^ (n - 1 - k))
        = (Memory.read m (a + k)).toNat * 2 ^ (n + 1 - 1 - k) := fun k hk => by
      have hweight : n + 1 - 1 - k = n - 1 - k + 1 := by have := List.mem_range.mp hk; omega
      rw [hweight, Nat.pow_succ]
      ring
    rw [rangeNat_succ, ih, ← List.sum_map_mul_left, List.map_congr_left hdouble, List.range_succ,
      List.map_append, List.sum_append]
    simp

/-- Settles O36: a range of at most `W ≤ 32` bits is below `2 ^ 32`, so the result holds the whole
sum. -/
theorem bufGetrReturnsTheRange : Obligations.BufGetrReturnsTheRange := by
  intro s start stop w hs hw1 hw32 hrev hlen hfit
  refine ⟨_, exec_bufGetr hs ⟨hw1, hw32⟩ hrev hlen hfit, ?_⟩
  have hlt : rangeNat s.buf start.toNat (stop.toNat - start.toNat + 1) < 2 ^ 32 :=
    (rangeNat_lt _ _ _).trans_le (Nat.pow_le_pow_right two_pos (by omega))
  rw [BitVec.toNat_ofNat, Nat.mod_eq_of_lt hlt, rangeNat_eq_sum, Nat.add_sub_cancel]

/-! ### The next set bit -/

/-- The least set index from `f` on below `len` is the next set bit. -/
theorem nsb_eq_some {m : Memory} {len f n : Nat} (hfn : f ≤ n) (hn : n < len)
    (hset : Memory.read m n = true) (hleast : ∀ k, f ≤ k → k < n → Memory.read m k = false) :
    nsb m len f = some n := by
  have hspec := nextSetFrom_spec m (len - f) f
  rw [nsb]
  cases h : nextSetFrom m (len - f) f with
  | none =>
    rw [h] at hspec
    exact absurd hset (Bool.eq_false_iff.mp (hspec n hfn (by omega)))
  | some i =>
    rw [h] at hspec
    obtain ⟨hfi, -, hread, hbefore⟩ := hspec
    rcases lt_trichotomy i n with hlt | rfl | hgt
    · exact absurd hread (Bool.eq_false_iff.mp (hleast i hfi hlt))
    · rfl
    · exact absurd hset (Bool.eq_false_iff.mp (hbefore n hfn hgt))

/-- There is no next set bit where every bit from `f` on below `len` is 0. -/
theorem nsb_eq_none {m : Memory} {len f : Nat}
    (hclear : ∀ k, f ≤ k → k < len → Memory.read m k = false) : nsb m len f = none := by
  have hspec := nextSetFrom_spec m (len - f) f
  rw [nsb]
  cases h : nextSetFrom m (len - f) f with
  | none => rfl
  | some i =>
    rw [h] at hspec
    obtain ⟨hfi, hi, hread, -⟩ := hspec
    exact absurd hread (Bool.eq_false_iff.mp (hclear i hfi (by omega)))

/-- `BIT_NSB` over a loaded buffer (40_bit_buffer.md R106). -/
theorem exec_bitNsb {s : State} {start : Half} (hs : Ready s) :
    exec (.bitNsb start) s
      = .next (s.respond .ok (nsbResult (nsb s.buf s.len.toNat start.toNat))) :=
  exec_of_ready hs trivial (loaded_of_ready hs) rfl

/-- Settles O35: the result is that of the search, which finds the least set index or none. -/
theorem nextSetBitIsTheLeast : Obligations.NextSetBitIsTheLeast := by
  intro s start hs
  refine ⟨fun n hstart hn hset hleast => ?_, fun hclear => ?_⟩
  · rw [exec_bitNsb hs, nsb_eq_some hstart hn hset hleast]
    rfl
  · rw [exec_bitNsb hs, nsb_eq_none hclear]
    rfl

end Sys2Proof.Machine

/-!
CERTIFICATE. The syndrome tables (41_crc_ecc.md R131): the shift register is linear over XOR, so the
entries of a generated table add up to the register's value of any message.
-/
namespace Sys2Proof.Machine

/-! ### The shift register is linear -/

/-- A step of the shift register is linear over XOR, jointly in the register and the input bit. -/
theorem crcRegStep_xor (C g r q : Nat) (a b : Bool) :
    crcRegStep C g (r ^^^ q) (a ^^ b) = crcRegStep C g r a ^^^ crcRegStep C g q b := by
  have hfeedback : ((r ^^^ q).testBit (C - 1) ^^ (a ^^ b))
      = ((r.testBit (C - 1) ^^ a) ^^ (q.testBit (C - 1) ^^ b)) := by
    simp only [Nat.testBit_xor, Bool.xor_assoc, Bool.xor_left_comm]
  simp only [crcRegStep, Nat.shiftLeft_xor_distrib, Nat.xor_mod_two_pow, hfeedback]
  cases r.testBit (C - 1) ^^ a <;> cases q.testBit (C - 1) ^^ b
  · rfl
  · exact Nat.xor_assoc _ _ _
  · simp only [Bool.xor_false, if_true, Bool.false_eq_true, if_false]
    ac_rfl
  · simp only [Bool.xor_self, if_true, Bool.false_eq_true, if_false]
    rw [Nat.xor_assoc, Nat.xor_left_comm g, Nat.xor_self, Nat.xor_zero]

/-- A zero bit leaves the empty register empty. -/
theorem crcRegStep_zero (C g : Nat) : crcRegStep C g 0 false = 0 := by
  simp [crcRegStep]

/-- What a message leaves in the register is what it leaves in an empty one, and what as many zero
bits leave of the register it started from. -/
theorem foldl_crcRegStep_xor (C g r q : Nat) (bits : List Bool) :
    bits.foldl (crcRegStep C g) (r ^^^ q)
      = (List.replicate bits.length false).foldl (crcRegStep C g) r
        ^^^ bits.foldl (crcRegStep C g) q := by
  induction bits generalizing r q with
  | nil => rfl
  | cons b bits ih =>
    have hstep := crcRegStep_xor C g r q false b
    rw [Bool.false_xor] at hstep
    simp only [List.foldl_cons, List.length_cons, List.replicate_succ, hstep, ih]

/-- The register's value of a message splits off the contribution of its first bit. -/
theorem crcReg_cons (C g : Nat) (b : Bool) (bits : List Bool) :
    crcReg C g (b :: bits)
      = (if b then crcReg C g (true :: List.replicate bits.length false) else 0)
        ^^^ crcReg C g bits := by
  have hsplit := foldl_crcRegStep_xor C g (crcRegStep C g 0 b) 0 bits
  rw [Nat.xor_zero] at hsplit
  cases b with
  | false => rw [crcReg, List.foldl_cons, crcRegStep_zero]; exact (Nat.zero_xor _).symm
  | true => exact hsplit

/-! ### The generated table -/

theorem unitMessage_succ_zero (L : Nat) :
    unitMessage (L + 1) 0 = true :: List.replicate L false := by
  simp [unitMessage, List.range_succ_eq_map, Function.comp_def, List.map_const']

theorem unitMessage_succ_succ (L p : Nat) :
    unitMessage (L + 1) (p + 1) = false :: unitMessage L p := by
  simp [unitMessage, List.range_succ_eq_map, Function.comp_def]

/-- One more protected bit in front adds one entry in front. -/
theorem generatedTable_succ (C g L : Nat) :
    generatedTable C g (L + 1)
      = crcReg C g (true :: List.replicate L false) :: generatedTable C g L := by
  have htail (p : Nat) :
      crcReg C g (unitMessage (L + 1) (p + 1)) = crcReg C g (unitMessage L p) := by
    rw [unitMessage_succ_succ, crcReg, List.foldl_cons, crcRegStep_zero, crcReg]
  simp only [generatedTable, List.range_succ_eq_map, List.map_cons, List.map_map,
    unitMessage_succ_zero, Function.comp_def, Nat.succ_eq_add_one, htail]

/-! ### The sum of the entries of a message -/

@[simp] theorem syndromeSum_nil_left (bits : List Bool) : syndromeSum [] bits = 0 := by
  simp [syndromeSum]

@[simp] theorem syndromeSum_nil_right (syn : List Nat) : syndromeSum syn [] = 0 := rfl

@[simp] theorem syndromeSum_cons (e : Nat) (syn : List Nat) (b : Bool) (bits : List Bool) :
    syndromeSum (e :: syn) (b :: bits) = (if b then e else 0) ^^^ syndromeSum syn bits := by
  rw [syndromeSum, List.zipWith_cons_cons, List.foldl_cons, Nat.xor_comm, List.foldl_assoc]
  rfl

/-- Settles O41, by induction on the message: its first bit contributes the first entry. -/
theorem syndromeSumIsTheShiftRegister : Obligations.SyndromeSumIsTheShiftRegister := by
  intro C g bits _
  induction bits with
  | nil => rfl
  | cons b bits ih =>
    rw [List.length_cons, generatedTable_succ, syndromeSum_cons, ih, ← crcReg_cons]

/-- Settles O42, by evaluating the construction. -/
theorem defaultTablesAreGenerated : Obligations.DefaultTablesAreGenerated := by
  constructor <;> decide +kernel

end Sys2Proof.Machine

/-!
SUPPORT. The scan of a region: how it splits, and how one flipped bit changes a scan and a range
(20_memory.md R66; 41_crc_ecc.md R135, R143).
-/
namespace Sys2Proof.Machine

/-! ### The dense scan -/

/-- A dense scan takes the last bit of the span after the rest. -/
theorem denseXor_succ_last (m : Memory) (ms n : Nat) (entry : Nat → Nat) (acc : Nat) :
    denseXor m ms (n + 1) entry acc =
      if Memory.read m (ms + n) then denseXor m ms n entry acc ^^^ entry n
      else denseXor m ms n entry acc := by
  simp [denseXor, List.range_succ]

/-- A dense scan depends on the bits of its span and on their entries alone. -/
theorem denseXor_congr {m m' : Memory} {ms n : Nat} {entry entry' : Nat → Nat} (acc : Nat)
    (hread : ∀ i, ms ≤ i → i < ms + n → Memory.read m i = Memory.read m' i)
    (hentry : ∀ k < n, entry k = entry' k) :
    denseXor m ms n entry acc = denseXor m' ms n entry' acc := by
  induction n with
  | zero => rfl
  | succ n ih =>
    rw [denseXor_succ_last, denseXor_succ_last, hread (ms + n) (by omega) (by omega),
      hentry n (by omega), ih (fun i h1 h2 => hread i h1 (by omega))
        (fun k hk => hentry k (by omega))]

/-- The accumulator a scan starts from is one more term of the sum. -/
theorem denseXor_acc (m : Memory) (ms n : Nat) (entry : Nat → Nat) (acc : Nat) :
    denseXor m ms n entry acc = acc ^^^ denseXor m ms n entry 0 := by
  induction n with
  | zero => exact (Nat.xor_zero acc).symm
  | succ n ih =>
    rw [denseXor_succ_last, denseXor_succ_last, ih]
    cases Memory.read m (ms + n)
    · rfl
    · exact Nat.xor_assoc _ _ _

/-- The scan of a span is the scan of its first part, then of the rest. -/
theorem denseXor_add (m : Memory) (ms p q : Nat) (entry : Nat → Nat) (acc : Nat) :
    denseXor m ms (p + q) entry acc =
      denseXor m (ms + p) q (fun k => entry (p + k)) (denseXor m ms p entry acc) := by
  simp only [denseXor, List.range_add, List.foldl_append, List.foldl_map, Nat.add_assoc]

/-- Bits whose entries are 0 contribute nothing. -/
theorem denseXor_of_entry_zero {m : Memory} {ms n : Nat} {entry : Nat → Nat} (acc : Nat)
    (h : ∀ k < n, entry k = 0) : denseXor m ms n entry acc = acc := by
  induction n with
  | zero => rfl
  | succ n ih =>
    rw [denseXor_succ_last, ih fun k hk => h k (by omega), h n (by omega), Nat.xor_zero, ite_self]

/-! ### One flipped bit -/

theorem read_flipBit_of_ne (m : Memory) {i j : Nat} (h : j ≠ i) :
    Memory.read (flipBit m i) j = Memory.read m j := by
  rw [read_flipBit, if_neg h]

theorem read_flipBit_self (m : Memory) (i : Nat) :
    Memory.read (flipBit m i) i = !Memory.read m i := by
  rw [read_flipBit, if_pos rfl]

/-- A flip inside the span adds the entry of its position to the scan. -/
theorem denseXor_flipBit {m : Memory} {ms n p : Nat} (entry : Nat → Nat) (acc : Nat)
    (hp : p < n) :
    denseXor (flipBit m (ms + p)) ms n entry acc = denseXor m ms n entry acc ^^^ entry p := by
  induction n with
  | zero => omega
  | succ n ih =>
    rw [denseXor_succ_last, denseXor_succ_last]
    rcases Nat.lt_succ_iff_lt_or_eq.mp hp with hlt | rfl
    · rw [ih hlt, read_flipBit_of_ne m (by omega)]
      cases Memory.read m (ms + n)
      · rfl
      · exact Nat.xor_right_comm _ _ _
    · rw [denseXor_congr (m' := m) acc (fun i _ hi => read_flipBit_of_ne m (by omega))
        fun _ _ => rfl, read_flipBit_self]
      cases Memory.read m (ms + p)
      · rfl
      · exact (Nat.xor_xor_cancel_right _ _).symm

/-- A flip inside a range inverts the integer bit of its place. -/
theorem rangeNat_flipBit {m : Memory} {a n p : Nat} (hp : p < n) :
    rangeNat (flipBit m (a + p)) a n = rangeNat m a n ^^^ 2 ^ (n - 1 - p) := by
  refine Nat.eq_of_testBit_eq fun j => ?_
  by_cases hj : j < n
  · have hplace : a + (n - 1 - j) = a + p ↔ n - 1 - p = j := by omega
    simp only [Nat.testBit_xor, testBit_rangeNat _ _ hj, Nat.testBit_two_pow, read_flipBit, hplace]
    by_cases h : n - 1 - p = j
    · simp [h, ← hplace.mpr h]
    · simp [h]
  · have hpow : 2 ^ n ≤ 2 ^ j := Nat.pow_le_pow_right two_pos (by omega)
    have hbit : 2 ^ (n - 1 - p) < 2 ^ n := Nat.pow_lt_pow_right one_lt_two (by omega)
    rw [Nat.testBit_lt_two_pow ((rangeNat_lt _ a n).trans_le hpow),
      Nat.testBit_lt_two_pow ((Nat.xor_lt_two_pow (rangeNat_lt m a n) hbit).trans_le hpow)]

/-- A flip outside a range leaves it. -/
theorem rangeNat_flipBit_outside {m : Memory} {a n i : Nat} (hi : i < a ∨ a + n ≤ i) :
    rangeNat (flipBit m i) a n = rangeNat m a n :=
  rangeNat_congr fun j _ _ => read_flipBit_of_ne m (by omega)

/-- `BIT_FLIP` of an index below `LEN`, which an operand can hold. -/
theorem exec_bitFlip_ofNat {s : State} {i : Nat} (hs : Writable s) (hi : i < s.len.toNat) :
    exec (.bitFlip (BitVec.ofNat 16 i)) s
      = .next ((s.withBuf (flipBit s.buf i)).respond .ok 0#32) := by
  have hindex : (BitVec.ofNat 16 i).toNat = i := by
    rw [BitVec.toNat_ofNat, Nat.mod_eq_of_lt (hi.trans s.len.isLt)]
  have hrun := exec_bitFlip (i := BitVec.ofNat 16 i) hs (by rwa [hindex])
  rwa [hindex] at hrun

end Sys2Proof.Machine

/-!
CERTIFICATE. `CRC_CORR` (41_crc_ecc.md R132 to R140): the command decides on the residual of a dense
scan, one error adds its entry to that residual, and over the default table the sum of two entries
is no entry.
-/
namespace Sys2Proof.Machine

/-! ### The residual -/

theorem length_syn_of_legal {T : CorrTable} (h : corrTableLegal T) : T.syn.length = T.len := by
  obtain ⟨⟨-, -, -, hsyn⟩, -, -⟩ := h
  exact hsyn

theorem nodup_syn_of_legal {T : CorrTable} (h : corrTableLegal T) : T.syn.Nodup := by
  obtain ⟨-, -, hnodup⟩ := h
  exact hnodup

theorem synAt_eq_getD {syn : List Nat} {p : Nat} (hp : p < syn.length) :
    synAt syn p = syn.getD p 0 := by
  rw [synAt_of_lt hp, List.getD_eq_getElem _ _ hp]

/-- The residual the command computes is that of the dense scan (20_memory.md R66). -/
theorem corrResidual_eq_denseResidual {T : CorrTable} (m : Memory) {len ms : Nat} (cs seed : Nat)
    (hsyn : T.syn.length = T.len) (hfit : ms + T.len ≤ len) :
    corrResidual T m len ms cs seed = denseResidual T m ms cs seed := by
  rw [corrResidual, corrAcc, sparseIterationEqualsDenseScan _ _ _ _ _ _ hfit, denseResidual]
  congr 1
  refine denseXor_congr seed (fun _ _ _ => rfl) fun k hk => ?_
  rw [Nat.add_sub_cancel_left, synAt_eq_getD (by omega)]

/-- One error in the protected region adds the entry of its position to the residual. -/
theorem denseResidual_flipBit {T : CorrTable} (m : Memory) {ms cs p : Nat} (seed : Nat)
    (hp : p < T.len) (hcs : ms + T.len ≤ cs) :
    denseResidual T (flipBit m (ms + p)) ms cs seed
      = denseResidual T m ms cs seed ^^^ T.syn.getD p 0 := by
  rw [denseResidual, denseResidual, denseXor_flipBit _ _ hp,
    rangeNat_flipBit_outside (by omega), Nat.xor_right_comm]

/-! ### The syndrome lookup -/

/-- Entries are pairwise distinct, so a residual that is the entry of position `p` locates `p`. -/
theorem lookupSyndrome_eq_some {T : CorrTable} {p res : Nat} (hT : corrTableLegal T)
    (hp : T.syn[p]? = some res) : lookupSyndrome T res = some p := by
  have hsyn := length_syn_of_legal hT
  obtain ⟨hplt, hentry⟩ := List.getElem?_eq_some_iff.mp hp
  have hspec := lookupSyndrome_spec T res
  cases hq : lookupSyndrome T res with
  | none =>
    rw [hq] at hspec
    exact absurd ((synAt_of_lt hplt).trans hentry) (hspec p (by omega))
  | some q =>
    rw [hq] at hspec
    obtain ⟨hqlt, hqentry⟩ := hspec
    rw [synAt_of_lt (by omega), ← hentry] at hqentry
    rw [(nodup_syn_of_legal hT).getElem_inj_iff.mp hqentry]

/-- A residual that is no entry locates nothing. -/
theorem lookupSyndrome_eq_none {T : CorrTable} {res : Nat} (hsyn : T.syn.length = T.len)
    (hres : res ∉ T.syn) : lookupSyndrome T res = none := by
  have hspec := lookupSyndrome_spec T res
  cases hq : lookupSyndrome T res with
  | none => rfl
  | some q =>
    rw [hq] at hspec
    obtain ⟨hqlt, hentry⟩ := hspec
    rw [synAt_of_lt (by omega)] at hentry
    exact absurd (hentry ▸ List.getElem_mem _) hres

/-! ### The run of the command -/

/-- A `CRC_CORR` all of whose checks pass, over a legal table (41_crc_ecc.md R133, R134). -/
structure CorrCall (s : State) (t : BitVec 8) (ms cs seed : Half) (T : CorrTable) : Prop where
  writable : Writable s
  table : s.cfg.corrTables[t.toNat]? = some T
  legal : corrTableLegal T
  seedFits : seed.toNat < 2 ^ T.width
  regionFits : corrRegionFits T s ms cs

/-- The residual of a call. -/
abbrev callResidual (s : State) (ms cs seed : Half) (T : CorrTable) : Nat :=
  denseResidual T s.buf ms.toNat cs.toNat seed.toNat

/-- The result that names the corrected bit (41_crc_ecc.md R137). -/
theorem correctedResult_eq (x : Nat) :
    (BitVec.ofNat 32 x) <<< 16 ||| verdictResult .corrected = BitVec.ofNat 32 (x * 2 ^ 16 + 2) := by
  have hor : x * 2 ^ 16 ||| 2 = x * 2 ^ 16 + 2 := by
    rw [Nat.mul_comm, Nat.two_pow_add_eq_or_of_lt (by decide)]
  have hcode : verdictResult .corrected = BitVec.ofNat 32 2 := rfl
  have hshift : (BitVec.ofNat 32 x) <<< 16 = BitVec.ofNat 32 (x * 2 ^ 16) := by
    refine BitVec.eq_of_toNat_eq ?_
    rw [BitVec.toNat_shiftLeft, BitVec.toNat_ofNat, BitVec.toNat_ofNat, Nat.shiftLeft_eq,
      Nat.mod_mul_mod]
  rw [hcode, hshift, ← BitVec.ofNat_or, hor]

section
variable {s : State} {t : BitVec 8} {ms cs seed : Half} {T : CorrTable}

/-- A call whose checks pass has its effect (60_exceptions.md R240). -/
theorem CorrCall.exec_eq_corrEffect (h : CorrCall s t ms cs seed T) :
    exec (.crcCorr t ms cs seed) s = .next (corrEffect T ms cs seed s) := by
  have hgood : corrBad T s.len.toNat ms.toNat cs.toNat = false := by
    rw [Bool.eq_false_iff, ne_eq, corrBad_eq_true_iff]
    exact not_not_intro h.regionFits
  have hrun := exec_of_ready (i := .crcCorr t ms cs seed) h.writable.1 ⟨T, h.table, h.seedFits⟩
  simp only [gateOf, effectOf, h.table, Option.elim_some] at hrun
  exact hrun (writePhase_of_writable h.writable) ((rangeCheck_eq_none _ _).mpr hgood)

theorem CorrCall.residual (h : CorrCall s t ms cs seed T) :
    corrResidual T s.buf s.len.toNat ms.toNat cs.toNat seed.toNat = callResidual s ms cs seed T :=
  corrResidual_eq_denseResidual _ _ _ (length_syn_of_legal h.legal) h.regionFits.1

/-- Residual 0 or all-ones: PASSED (41_crc_ecc.md R136, R137). -/
theorem CorrCall.exec_passed (h : CorrCall s t ms cs seed T) {res : Nat}
    (hres : callResidual s ms cs seed T = res) (hclass : res = 0 ∨ res = 2 ^ T.width - 1) :
    exec (.crcCorr t ms cs seed) s
      = .next ((s.setVerdict .passed).respond .ok 1#32) := by
  rw [h.exec_eq_corrEffect, corrEffect, h.residual, hres]
  exact congrArg _ (if_pos hclass)

/-- Residual the entry of position `p`: that bit is inverted, CORRECTED (41_crc_ecc.md R137). -/
theorem CorrCall.exec_corrected (h : CorrCall s t ms cs seed T) {res p : Nat}
    (hres : callResidual s ms cs seed T = res) (h0 : res ≠ 0) (h1 : res ≠ 2 ^ T.width - 1)
    (hp : T.syn[p]? = some res) :
    exec (.crcCorr t ms cs seed) s
      = .next
        ((((s.withBuf (flipBit s.buf (ms.toNat + p))).incCorr 1).setVerdict .corrected).respond
          .ok (BitVec.ofNat 32 ((ms.toNat + p) * 2 ^ 16 + 2))) := by
  rw [h.exec_eq_corrEffect, corrEffect, h.residual, hres, lookupSyndrome_eq_some h.legal hp,
    ← correctedResult_eq]
  exact congrArg _ (if_neg (not_or.mpr ⟨h0, h1⟩))

/-- Any other residual: FAILED (41_crc_ecc.md R138). -/
theorem CorrCall.exec_failed (h : CorrCall s t ms cs seed T) {res : Nat}
    (hres : callResidual s ms cs seed T = res) (h0 : res ≠ 0) (h1 : res ≠ 2 ^ T.width - 1)
    (hnone : res ∉ T.syn) :
    exec (.crcCorr t ms cs seed) s
      = .next (((s.incCorr 2).setVerdict .failed).respond .ok 3#32) := by
  rw [h.exec_eq_corrEffect, corrEffect, h.residual, hres,
    lookupSyndrome_eq_none (length_syn_of_legal h.legal) hnone]
  exact congrArg _ (if_neg (not_or.mpr ⟨h0, h1⟩))

/-- The same call can be made after a bit has been flipped. -/
theorem CorrCall.after_flip (h : CorrCall s t ms cs seed T) (m : Memory) :
    CorrCall ((s.withBuf m).respond .ok 0#32) t ms cs seed T :=
  ⟨h.writable, h.table, h.legal, h.seedFits, h.regionFits⟩

end

/-- Settles O43: one rule of the command for each class of residuals. -/
theorem crcCorrDecidesOnTheResidual : Obligations.CrcCorrDecidesOnTheResidual := by
  intro s t ms cs seed T hs hT hlegal hseed hfit
  have hcall : CorrCall s t ms cs seed T := ⟨hs, hT, hlegal, hseed, hfit⟩
  refine ⟨hcall.exec_passed rfl, fun p h0 h1 hp => ?_, hcall.exec_failed rfl⟩
  refine ⟨flipBit s.buf (ms.toNat + p), hcall.exec_corrected rfl h0 h1 hp, fun a => ?_⟩
  by_cases ha : a = ms.toNat + p <;> simp [read_flipBit, ha]

/-- Settles O44: the residual of the word with the error is the entry of its position, so the
command flips the same bit again. -/
theorem singleErrorIsCorrected : Obligations.SingleErrorIsCorrected := by
  intro s t ms cs seed T p hs hwf hT hlegal hnondeg hseed hfit hclean hp
  have hcall : CorrCall s t ms cs seed T := ⟨hs, hT, hlegal, hseed, hfit⟩
  obtain ⟨hregion, hbefore, -⟩ := hfit
  have hplt : p < T.syn.length := hp.trans_eq (length_syn_of_legal hlegal).symm
  have hres : denseResidual T (flipBit s.buf (ms.toNat + p)) ms.toNat cs.toNat seed.toNat
      = T.syn[p] := by
    rw [denseResidual_flipBit _ _ hp hbefore, hclean, Nat.zero_xor, List.getD_eq_getElem _ _ hplt]
  obtain ⟨h0, h1⟩ := hnondeg _ (List.getElem_mem hplt)
  have hcorr := (hcall.after_flip (flipBit s.buf (ms.toNat + p))).exec_corrected hres h0 h1
    (List.getElem?_eq_getElem hplt)
  rw [respond_buf, withBuf_buf, flipBit_flipBit hwf] at hcorr
  rw [execAll_cons (exec_bitFlip_ofNat hs (by omega)), execAll_cons hcorr, execAll]
  simp only [State.respond, State.setVerdict, State.incCorr, State.withBuf, sat32]

/-! ### Two errors over the default table -/

/-- Whether an odd number of the low `n` bits of `x` are 1. -/
def oddWeight (x : Nat) : Nat → Bool
  | 0 => false
  | n + 1 => x.testBit n ^^ oddWeight x n

theorem oddWeight_xor (x y n : Nat) :
    oddWeight (x ^^^ y) n = (oddWeight x n ^^ oddWeight y n) := by
  induction n with
  | zero => rfl
  | succ n ih => simp only [oddWeight, Nat.testBit_xor, ih, Bool.xor_assoc, Bool.xor_left_comm]

/-- `x + 1` divides the generator `0x1021`, so every entry has an odd number of ones. -/
theorem oddWeight_ccitt80 : ∀ e ∈ ccitt80.syn, oddWeight e 16 = true := by decide +kernel

/-- No two entries are complements of each other (41_crc_ecc.md R139 (a)). -/
theorem ccitt80_complement : ∀ e ∈ ccitt80.syn, 2 ^ 16 - 1 ^^^ e ∉ ccitt80.syn := by
  decide +kernel

theorem corrTableLegal_ccitt80 : corrTableLegal ccitt80 := by decide +kernel

/-- The sum of two different entries is neither 0 nor all-ones nor an entry (41_crc_ecc.md
R139 (c)): its number of ones is even. -/
theorem ccitt80_two_entries {e f : Nat} (he : e ∈ ccitt80.syn) (hf : f ∈ ccitt80.syn)
    (hne : e ≠ f) : e ^^^ f ≠ 0 ∧ e ^^^ f ≠ 2 ^ 16 - 1 ∧ e ^^^ f ∉ ccitt80.syn := by
  refine ⟨fun h => hne (Nat.xor_eq_zero_iff.mp h), fun h => ?_, fun h => ?_⟩
  · exact ccitt80_complement f hf (by rwa [← h, Nat.xor_xor_cancel_right])
  · have hodd := oddWeight_ccitt80 _ h
    rw [oddWeight_xor, oddWeight_ccitt80 e he, oddWeight_ccitt80 f hf] at hodd
    exact absurd hodd (by decide)

/-- Settles O45: the residual is the sum of the two entries. -/
theorem doubleErrorFailsOverTheDefaultTable : Obligations.DoubleErrorFailsOverTheDefaultTable := by
  intro s t ms cs seed p q hs hT hfit hclean hpq hq
  have hcall : CorrCall s t ms cs seed ccitt80 :=
    ⟨hs, hT, corrTableLegal_ccitt80, seed.isLt, hfit⟩
  obtain ⟨hregion, hbefore, -⟩ := hfit
  have hlen : ms.toNat + 80 ≤ s.len.toNat := hregion
  have hp80 : p < ccitt80.syn.length := hpq.trans hq
  have hq80 : q < ccitt80.syn.length := hq
  have hres : denseResidual ccitt80 (flipBit (flipBit s.buf (ms.toNat + p)) (ms.toNat + q))
      ms.toNat cs.toNat seed.toNat = ccitt80.syn[p] ^^^ ccitt80.syn[q] := by
    rw [denseResidual_flipBit _ _ hq hbefore, denseResidual_flipBit _ _ (hpq.trans hq) hbefore,
      hclean, Nat.zero_xor, List.getD_eq_getElem _ _ hp80, List.getD_eq_getElem _ _ hq80]
  have hne : ccitt80.syn[p] ≠ ccitt80.syn[q] := fun h =>
    hpq.ne ((nodup_syn_of_legal corrTableLegal_ccitt80).getElem_inj_iff.mp h)
  obtain ⟨h0, h1, hnone⟩ :=
    ccitt80_two_entries (List.getElem_mem hp80) (List.getElem_mem hq80) hne
  refine ⟨flipBit (flipBit s.buf (ms.toNat + p)) (ms.toNat + q), ?_, ?_⟩
  · have hsecond := exec_bitFlip_ofNat (i := ms.toNat + q)
      (s := (s.withBuf (flipBit s.buf (ms.toNat + p))).respond .ok 0#32) hs
      (by rw [respond_len, withBuf_len]; omega)
    rw [execAll_cons (exec_bitFlip_ofNat hs (by omega)), execAll_cons hsecond]
    rfl
  · exact (hcall.after_flip _).exec_failed hres h0 h1 hnone

end Sys2Proof.Machine

/-!
CERTIFICATE. `CRC9_CHK` (41_crc_ecc.md R141 to R146): the command decides on the residual of the
protected bits in table order, and one error anywhere in the region changes that residual by a term
that is neither 0 nor all-ones.
-/
namespace Sys2Proof.Machine

/-! ### The protected bits in table order -/

theorem length_spanBits (m : Memory) (a n : Nat) : (spanBits m a n).length = n := by
  simp [spanBits]

theorem spanBits_succ (m : Memory) (a n : Nat) :
    spanBits m a (n + 1) = Memory.read m a :: spanBits m (a + 1) n := by
  simp only [spanBits, List.range_succ_eq_map, List.map_cons, List.map_map, Function.comp_def,
    Nat.succ_eq_add_one, Nat.add_zero, Nat.add_assoc, Nat.add_comm 1]

/-- The sum over a message in two parts: the second part starts where the first one's entries
end. -/
theorem syndromeSum_append (syn : List Nat) (xs ys : List Bool) :
    syndromeSum syn (xs ++ ys) = syndromeSum syn xs ^^^ syndromeSum (syn.drop xs.length) ys := by
  induction xs generalizing syn with
  | nil => simp
  | cons x xs ih =>
    cases syn with
    | nil => simp
    | cons e syn => simp [ih, Nat.xor_assoc]

/-- The sum over a span is its dense scan. -/
theorem syndromeSum_spanBits (syn : List Nat) (m : Memory) (a n : Nat) :
    syndromeSum syn (spanBits m a n) = denseXor m a n (fun k => syn.getD k 0) 0 := by
  induction n generalizing syn a with
  | zero => rfl
  | succ n ih =>
    cases syn with
    | nil => rw [syndromeSum_nil_left, denseXor_of_entry_zero _ fun k _ => List.getD_nil]
    | cons e syn =>
      rw [spanBits_succ, syndromeSum_cons, ih, denseXor_succ, Nat.zero_xor]
      exact (denseXor_acc _ _ _ _ _).symm

/-! ### The residual -/

/-- The scan of the region by the index mapping is the sum over the protected bits in table order:
the bits of the checksum field, in between, contribute nothing (41_crc_ecc.md R143). -/
theorem crc9Scan_eq_syndromeSum {U : Crc9Table} (m : Memory) {ms cs : Nat}
    (hsyn : U.syn.length = U.len) (hbefore : ms ≤ cs) (hafter : cs ≤ ms + U.len) :
    denseXor m ms (U.len + 9) (fun k => crc9Entry U ms cs (ms + k)) 0
      = syndromeSum U.syn (crc9Message U m ms cs) := by
  obtain ⟨p, rfl⟩ := Nat.exists_eq_add_of_le hbefore
  obtain ⟨q, hq⟩ := Nat.exists_eq_add_of_le (Nat.le_of_add_le_add_left hafter)
  have hsplit : U.len + 9 = p + 9 + q := by omega
  have hrest : ms + U.len - (ms + p) = q := by omega
  rw [hsplit, denseXor_add, denseXor_add, crc9Message, Nat.add_sub_cancel_left, hrest,
    syndromeSum_append, length_spanBits, syndromeSum_spanBits, syndromeSum_spanBits, denseXor_acc,
    denseXor_of_entry_zero (entry := fun k => crc9Entry U ms (ms + p) (ms + (p + k)))]
  · congr 1
    · refine denseXor_congr 0 (fun _ _ _ => rfl) fun k hk => ?_
      rw [crc9Entry, if_pos (by omega), Nat.add_sub_cancel_left, synAt_eq_getD (by omega)]
    · rw [← Nat.add_assoc]
      refine denseXor_congr 0 (fun _ _ _ => rfl) fun k hk => ?_
      have hplace : ms + (p + 9 + k) - ms - 9 = p + k := by omega
      rw [crc9Entry, if_neg (by omega), if_pos (by omega), hplace, synAt_eq_getD (by omega)]
      simp only [List.getD_eq_getElem?_getD, List.getElem?_drop]
  · intro k hk
    rw [crc9Entry, if_neg (by omega), if_neg (by omega)]

/-- The residual the command computes is that of the protected bits in table order. -/
theorem crc9Residual_eq_denseResidual9 {U : Crc9Table} (m : Memory) {len ms cs : Nat}
    (hsyn : U.syn.length = U.len) (hfit : ms + U.len + 9 ≤ len) (hbefore : ms ≤ cs)
    (hafter : cs ≤ ms + U.len) :
    crc9Residual U m len ms cs = denseResidual9 U m ms cs := by
  rw [crc9Residual, crc9Acc, sparseIterationEqualsDenseScan _ _ _ _ _ _ (by omega),
    crc9Scan_eq_syndromeSum m hsyn hbefore hafter, denseResidual9]

/-- What one error at index `i` adds to the residual: the entry of a protected bit, or the weight of
a checksum bit. -/
def crc9Contribution (U : Crc9Table) (ms cs i : Nat) : Nat :=
  if cs ≤ i ∧ i < cs + 9 then 2 ^ (8 - (i - cs)) else crc9Entry U ms cs i

/-- One error in the region adds the contribution of its index. -/
theorem denseResidual9_flipBit {U : Crc9Table} (m : Memory) {ms cs i : Nat}
    (hsyn : U.syn.length = U.len) (hbefore : ms ≤ cs) (hafter : cs ≤ ms + U.len) (hms : ms ≤ i)
    (hi : i < ms + (U.len + 9)) :
    denseResidual9 U (flipBit m i) ms cs
      = denseResidual9 U m ms cs ^^^ crc9Contribution U ms cs i := by
  obtain ⟨k, rfl⟩ := Nat.exists_eq_add_of_le hms
  simp only [denseResidual9, ← crc9Scan_eq_syndromeSum _ hsyn hbefore hafter]
  rw [denseXor_flipBit _ _ (Nat.lt_of_add_lt_add_left hi), crc9Contribution]
  split <;> rename_i hfield
  · obtain ⟨hcs, hend⟩ := hfield
    obtain ⟨p, hp⟩ := Nat.exists_eq_add_of_le hcs
    rw [hp, rangeNat_flipBit (by omega), crc9Entry, if_neg (by omega), if_neg (by omega),
      Nat.xor_zero, Nat.add_sub_cancel_left, Nat.xor_assoc]
  · rw [rangeNat_flipBit_outside (by omega), Nat.xor_right_comm]

/-! ### The run of the command -/

section
variable {s : State} {t : BitVec 8} {ms cs : Half} {U : Crc9Table}

/-- A `CRC9_CHK` whose region fits has its effect (41_crc_ecc.md R142). -/
theorem exec_crc9Chk (hs : Writable s) (hU : s.cfg.crc9Tables[t.toNat]? = some U)
    (hfit : crc9RegionFits U s ms cs) :
    exec (.crc9Chk t ms cs) s = .next (crc9Effect U ms cs s) := by
  have hgood : crc9Bad U s.len.toNat ms.toNat cs.toNat = false := by
    rw [Bool.eq_false_iff, ne_eq, crc9Bad_eq_true_iff]
    exact not_not_intro hfit
  have hrun := exec_of_ready (i := .crc9Chk t ms cs) hs.1 (List.getElem?_eq_some_iff.mp hU).1
  simp only [gateOf, effectOf, hU, Option.elim_some] at hrun
  exact hrun (writePhase_of_writable hs) ((rangeCheck_eq_none _ _).mpr hgood)

theorem exec_crc9Chk_eq_ite (hs : Writable s) (hU : s.cfg.crc9Tables[t.toNat]? = some U)
    (hsyn : U.syn.length = U.len) (hfit : crc9RegionFits U s ms cs) :
    exec (.crc9Chk t ms cs) s = .next
      (if denseResidual9 U s.buf ms.toNat cs.toNat = 0
          ∨ denseResidual9 U s.buf ms.toNat cs.toNat = 0x1FF then
        (s.setVerdict .passed).respond .ok 1#32
      else ((s.incCorr s.cfg.crc9FailInc).setVerdict .failed).respond .ok 3#32) := by
  obtain ⟨hregion, hbefore, hafter⟩ := hfit
  rw [exec_crc9Chk hs hU ⟨hregion, hbefore, hafter⟩, crc9Effect,
    crc9Residual_eq_denseResidual9 _ hsyn hregion hbefore hafter]
  rfl

end

/-- Settles O46: the two branches of the command's effect. -/
theorem crc9DecidesOnTheResidual : Obligations.Crc9DecidesOnTheResidual := by
  intro s t ms cs U hs hU hlegal hfit
  obtain ⟨⟨-, hsyn⟩, -, -⟩ := hlegal
  have hrun := exec_crc9Chk_eq_ite hs hU hsyn hfit
  refine ⟨fun hclean => ?_, fun h0 h1 => ?_⟩
  · rw [hrun, if_pos hclean]
    rfl
  · rw [hrun, if_neg (not_or.mpr ⟨h0, h1⟩)]
    rfl

/-! ### One error over the default table -/

theorem crc9TableLegal_crc9Default : crc9TableLegal crc9Default := by decide +kernel

/-- No entry is 0 or all-ones (41_crc_ecc.md R146 (a)). -/
theorem crc9Default_nondegenerate : ∀ e ∈ crc9Default.syn, e ≠ 0 ∧ e ≠ 0x1FF := by decide +kernel

/-- A power of two below `2 ^ 9` is neither 0 nor all-ones. -/
theorem two_pow_nondegenerate : ∀ k < 9, 2 ^ k ≠ 0 ∧ 2 ^ k ≠ 0x1FF := by decide

/-- An error at any index of the region contributes neither 0 nor all-ones. -/
theorem crc9Contribution_nondegenerate {ms cs i : Nat} (hbefore : ms ≤ cs)
    (hafter : cs ≤ ms + 135) (hms : ms ≤ i) (hi : i < ms + 144) :
    crc9Contribution crc9Default ms cs i ≠ 0 ∧ crc9Contribution crc9Default ms cs i ≠ 0x1FF := by
  have hentry {p : Nat} (hp : p < 135) :
      synAt crc9Default.syn p ≠ 0 ∧ synAt crc9Default.syn p ≠ 0x1FF := by
    rw [synAt_of_lt (syn := crc9Default.syn) hp]
    exact crc9Default_nondegenerate _ (List.getElem_mem _)
  unfold crc9Contribution crc9Entry
  split_ifs with hfield hlow hhigh
  · exact two_pow_nondegenerate _ (by omega)
  · exact hentry (by omega)
  · exact hentry (by omega)
  · omega

/-- A residual of either polarity is left by a term that is neither 0 nor all-ones. -/
theorem xor_ne_of_clean {r d n : Nat} (hr : r = 0 ∨ r = n) (hd0 : d ≠ 0) (hdn : d ≠ n) :
    r ^^^ d ≠ 0 ∧ r ^^^ d ≠ n := by
  rcases hr with rfl | rfl
  · rw [Nat.zero_xor]
    exact ⟨hd0, hdn⟩
  · refine ⟨fun h => hdn (Nat.xor_eq_zero_iff.mp h).symm, fun h => hd0 ?_⟩
    exact Nat.xor_right_inj.mp (h.trans (Nat.xor_zero r).symm)

/-- Settles O47: the error changes the residual by its contribution, so the residual leaves both
clean classes. -/
theorem crc9SingleErrorFails : Obligations.Crc9SingleErrorFails := by
  intro s t ms cs i hs hU hfit hclean hms hi
  obtain ⟨⟨-, hsyn⟩, -, -⟩ := crc9TableLegal_crc9Default
  obtain ⟨hregion, hbefore, hafter⟩ := hfit
  have hlen : ms.toNat + 135 + 9 ≤ s.len.toNat := hregion
  obtain ⟨hd0, hd1⟩ := crc9Contribution_nondegenerate hbefore hafter hms hi
  have hdirty := xor_ne_of_clean hclean hd0 hd1
  rw [← denseResidual9_flipBit s.buf hsyn hbefore hafter hms hi] at hdirty
  refine ⟨flipBit s.buf i.toNat, exec_bitFlip hs (by omega), ?_⟩
  have hrun := exec_crc9Chk_eq_ite (s := (s.withBuf (flipBit s.buf i.toNat)).respond .ok 0#32) hs
    hU hsyn ⟨hregion, hbefore, hafter⟩
  exact hrun.trans (congrArg _ (if_neg (not_or.mpr hdirty)))

end Sys2Proof.Machine

/-!
CERTIFICATE. `CRC8_CALC` (41_crc_ecc.md R150): the command runs the shift register of R131 with
width 8, and the bits of its own remainder shift the register empty.
-/
namespace Sys2Proof.Machine

/-- `CRC8_CALC` of a span below `LEN` (41_crc_ecc.md R150). -/
theorem exec_crc8Calc {s : State} {start count : Half} (hs : Ready s) (hcount : 1 ≤ count.toNat)
    (hfit : start.toNat + count.toNat ≤ s.len.toNat) :
    exec (.crc8Calc start count) s = .next (s.respond .ok
      ((crc8Run s.cfg.poly8 s.buf count.toNat start.toNat 0#8).setWidth 32)) :=
  exec_of_ready hs hcount (loaded_of_ready hs)
    ((rangeCheck_eq_none _ _).mpr (decide_eq_false (by omega)))

/-! ### The shift register -/

/-- A step of the 8-bit division is a step of the shift register. -/
theorem toNat_crc8Step (poly reg : BitVec 8) (b : Bool) :
    (crc8Step poly reg b).toNat = crcRegStep 8 poly.toNat reg.toNat b := by
  rw [crc8Step, crcRegStep, BitVec.getLsbD]
  split
  · rw [BitVec.toNat_xor, BitVec.toNat_shiftLeft]
  · rw [BitVec.toNat_shiftLeft]

/-- The division over a span is the shift register's run over its bits. -/
theorem toNat_crc8Run (poly : BitVec 8) (m : Memory) (n a : Nat) (reg : BitVec 8) :
    (crc8Run poly m n a reg).toNat
      = (spanBits m a n).foldl (crcRegStep 8 poly.toNat) reg.toNat := by
  induction n generalizing a reg with
  | zero => rfl
  | succ n ih => rw [crc8Run, ih, spanBits_succ, List.foldl_cons, toNat_crc8Step]

theorem toNat_setWidth_remainder (reg : BitVec 8) : (reg.setWidth 32).toNat = reg.toNat :=
  BitVec.toNat_setWidth_of_le (by decide)

/-- Settles O48: the run of the command starts from the empty register. -/
theorem crc8IsTheShiftRegister : Obligations.Crc8IsTheShiftRegister := by
  intro s start count hs hcount hfit
  refine ⟨_, exec_crc8Calc hs hcount hfit, ?_⟩
  rw [toNat_setWidth_remainder, toNat_crc8Run]
  rfl

/-! ### A span and its remainder -/

/-- The division over a span goes on from the remainder of its first part. -/
theorem crc8Run_add (poly : BitVec 8) (m : Memory) (p q a : Nat) (reg : BitVec 8) :
    crc8Run poly m (p + q) a reg = crc8Run poly m q (a + p) (crc8Run poly m p a reg) := by
  induction p generalizing a reg with
  | zero => rw [Nat.zero_add]; rfl
  | succ p ih =>
    rw [Nat.succ_add, crc8Run, ih, crc8Run, Nat.succ_add, ← Nat.add_succ]

/-- Bits that repeat the register, its most significant one first, feed back 0: the register only
shifts. -/
theorem crc8Run_of_repeats (poly : BitVec 8) {m : Memory} {n a : Nat} {reg : BitVec 8}
    (hbits : ∀ k < n, Memory.read m (a + k) = reg.getLsbD (7 - k)) (hn : n ≤ 8) :
    crc8Run poly m n a reg = reg <<< n := by
  induction n generalizing a reg with
  | zero => exact (BitVec.shiftLeft_zero reg).symm
  | succ n ih =>
    have hfirst : Memory.read m a = reg.getLsbD 7 := hbits 0 (by omega)
    have hstep : crc8Step poly reg (reg.getLsbD 7) = reg <<< 1 := by
      rw [crc8Step, Bool.xor_self, if_neg Bool.false_ne_true]
    rw [crc8Run, hfirst, hstep, ih _ (by omega), ← BitVec.shiftLeft_add, Nat.add_comm]
    intro k hk
    have hnext := hbits (k + 1) (by omega)
    have hplace : 7 - k - 1 = 7 - (k + 1) := by omega
    rw [← Nat.add_assoc, Nat.add_right_comm] at hnext
    rw [hnext, BitVec.getLsbD_shiftLeft, hplace, decide_eq_true (by omega),
      decide_eq_false (by omega)]
    rfl

/-- Settles O49: the 8 bits after the span repeat the remainder, and 8 shifts empty it. -/
theorem crc8OfSpanAndRemainderIsZero : Obligations.Crc8OfSpanAndRemainderIsZero := by
  intro s start count hs hcount hfit
  refine ⟨_, exec_crc8Calc hs hcount (by omega), fun happended => ?_⟩
  rw [toNat_setWidth_remainder] at happended
  have hlonger : (count + 8#16).toNat = count.toNat + 8 := by bv_omega
  have hbits : ∀ k < 8, Memory.read s.buf (start.toNat + count.toNat + k)
      = (crc8Run s.cfg.poly8 s.buf count.toNat start.toNat 0#8).getLsbD (7 - k) := fun k hk => by
    have hplace : 8 - 1 - (7 - k) = k := by omega
    rw [BitVec.getLsbD, ← happended, testBit_rangeNat _ _ (by omega), hplace]
  rw [exec_crc8Calc hs (by omega) (by omega), hlonger, crc8Run_add,
    crc8Run_of_repeats _ hbits le_rfl, BitVec.shiftLeft_eq_zero le_rfl]
  rfl

end Sys2Proof.Machine

/-!
CERTIFICATE. The opcode classifier (42_opcode_classifier.md R170 to R178): what the total lookup
answers value by value, what every descriptor id names, and the two 16-bit halves of a result.
-/
namespace Sys2Proof.Machine

/-! ### Two halves in one result -/

/-- The length field holds the number of 42_opcode_classifier.md R178. -/
theorem lenField_eq_ofNat (l : PayLen) : lenField l = BitVec.ofNat 16 (lenWord l) := by
  cases l with
  | var => rfl
  | fixed n => exact BitVec.eq_of_toNat_eq (Nat.mod_mod n (2 ^ 16)).symm

theorem lenWord_lt (l : PayLen) : lenWord l < 2 ^ 16 := by
  cases l with
  | var => decide
  | fixed n => exact Nat.mod_lt n (by decide)

/-- A result of two halves as one number (00_scope.md R11). -/
theorem pair_ofNat (hi : Nat) {lo : Nat} (hlo : lo < 2 ^ 16) :
    pair (BitVec.ofNat 16 hi) (BitVec.ofNat 16 lo) = BitVec.ofNat 32 (hi * 2 ^ 16 + lo) := by
  refine BitVec.eq_of_toNat_eq ?_
  rw [pair, BitVec.toNat_append, BitVec.toNat_ofNat, BitVec.toNat_ofNat, BitVec.toNat_ofNat,
    Nat.mod_eq_of_lt hlo, ← Nat.shiftLeft_add_eq_or_of_lt hlo, Nat.shiftLeft_eq]
  omega

/-- A half and the length field of a descriptor. -/
theorem pair_lenField (x : Nat) (l : PayLen) :
    pair (BitVec.ofNat 16 x) (lenField l) = BitVec.ofNat 32 (x * 2 ^ 16 + lenWord l) := by
  rw [lenField_eq_ofNat, pair_ofNat x (lenWord_lt l)]

/-- The high half of a result. -/
theorem extractLsb'_pair (hi lo : Half) : (pair hi lo).extractLsb' 16 16 = hi :=
  BitVec.extractLsb'_append_eq_left

/-! ### The registry -/

/-- With distinct codes the registry index finds every entry by its code (R173). -/
theorem findDef_code {c : Cfg} {e : OpcDef} (hc : opcCodesDistinct c) (he : e ∈ c.opcDef) :
    findDef c e.code = some e := by
  have hspec := findDef_spec c e.code
  cases hf : findDef c e.code with
  | none => rw [hf] at hspec; exact absurd rfl (hspec e he)
  | some e' =>
    rw [hf] at hspec
    exact congrArg some (List.inj_on_of_nodup_map hc hspec.1 he hspec.2)

/-- The registry index finds nothing exactly when no entry has the code (R173). -/
theorem findDef_eq_none_iff (c : Cfg) (v : Nat) :
    findDef c v = none ↔ ∀ e ∈ c.opcDef, e.code ≠ v := by
  simp [findDef]

theorem exists_findDef_of_mem {c : Cfg} {v : Nat} (h : v ∈ c.opcDef.map (fun e => e.code)) :
    ∃ e, findDef c v = some e := by
  obtain ⟨e, he, hcode⟩ := List.mem_map.mp h
  exact Option.ne_none_iff_exists'.mp fun hnone => (findDef_eq_none_iff c v).mp hnone e he hcode

/-- The band lengths, band by band (00_scope.md R8). -/
theorem exists_band_of_mem {c : Cfg} {band : Nat} {len : PayLen}
    (h : (band, len) ∈ [(0, c.fbLen0), (1, c.fbLen1), (2, c.fbLen2), (3, c.fbLen3)]) :
    ∃ b : Fin 4, b.val = band ∧ fbLen c b = len := by
  simp only [List.mem_cons, Prod.mk.injEq, List.not_mem_nil, or_false] at h
  obtain ⟨rfl, rfl⟩ | ⟨rfl, rfl⟩ | ⟨rfl, rfl⟩ | ⟨rfl, rfl⟩ := h
  · exact ⟨0, rfl, rfl⟩
  · exact ⟨1, rfl, rfl⟩
  · exact ⟨2, rfl, rfl⟩
  · exact ⟨3, rfl, rfl⟩

/-- The 64 codes of a band (R172). -/
theorem bandOf_eq {v : Nat} {b : Fin 4} (hlo : 64 * b.val ≤ v) (hhi : v ≤ 64 * b.val + 63) :
    bandOf v = b := by
  refine Fin.ext ?_
  change v / 64 % 4 = b.val
  omega

/-! ### What an id names -/

/-- An id up to 255 names the entry with that code (R171). -/
theorem descriptorOf_ofNat (c : Cfg) {n : Nat} (hn : n ≤ 255) :
    descriptorOf c (BitVec.ofNat 16 n) = (findDef c n).map fun e => .defined n e.length := by
  have hid : (BitVec.ofNat 16 n).toNat = n := Nat.mod_eq_of_lt (by omega)
  rw [descriptorOf, hid, if_pos hn]

/-- The four ids from 256 name the band fallbacks (R171). -/
theorem descriptorOf_fallback (c : Cfg) (b : Fin 4) {id : Half} (hid : id.toNat = 256 + b.val) :
    descriptorOf c id = some (.fallback b) := by
  have hb : Fin.ofNat 4 (256 + b.val - 256) = b := by
    rw [Nat.add_sub_cancel_left, Fin.ofNat_val_eq_self]
  rw [descriptorOf, hid, if_neg (by omega), if_pos (by omega), hb]

/-- The id 260 names the universal unknown (R171). -/
theorem descriptorOf_universal (c : Cfg) {id : Half} (hid : id.toNat = 260) :
    descriptorOf c id = some .universal := by
  rw [descriptorOf, if_neg (by omega), if_neg (by omega), if_pos hid]

/-- The rows of the table of ids (R171): the descriptor of each, with its code and its length. -/
theorem descriptorOf_of_row {c : Cfg} {id : Half} {code : Nat} {len : PayLen}
    (hc : opcCodesDistinct c)
    (h : (∃ e ∈ c.opcDef, e.code = id.toNat ∧ id.toNat ≤ 255 ∧ code = id.toNat ∧ len = e.length)
      ∨ (code = 0xFFFF ∧ (id.toNat, len) ∈ [(256, c.fbLen0), (257, c.fbLen1), (258, c.fbLen2),
          (259, c.fbLen3), (260, c.univLen)])) :
    ∃ d, descriptorOf c id = some d ∧ codeField d = BitVec.ofNat 16 code
      ∧ descriptorLen c d = len := by
  obtain ⟨e, he, hcode, hle, rfl, rfl⟩ | ⟨rfl, hrow⟩ := h
  · refine ⟨.defined id.toNat e.length, ?_, rfl, rfl⟩
    rw [descriptorOf, if_pos hle, ← hcode, findDef_code hc he]
    rfl
  · simp only [List.mem_cons, Prod.mk.injEq, List.not_mem_nil, or_false] at hrow
    obtain ⟨hid, rfl⟩ | ⟨hid, rfl⟩ | ⟨hid, rfl⟩ | ⟨hid, rfl⟩ | ⟨hid, rfl⟩ := hrow
    · exact ⟨.fallback 0, descriptorOf_fallback c 0 hid, rfl, rfl⟩
    · exact ⟨.fallback 1, descriptorOf_fallback c 1 hid, rfl, rfl⟩
    · exact ⟨.fallback 2, descriptorOf_fallback c 2 hid, rfl, rfl⟩
    · exact ⟨.fallback 3, descriptorOf_fallback c 3 hid, rfl, rfl⟩
    · exact ⟨.universal, descriptorOf_universal c hid, rfl, rfl⟩

/-! ### What the lookup answers -/

/-- In `[0,255]` the lookup answers the descriptor the value names as an id, and the fallback of its
band when it names none (R174). -/
theorem classify_natCast (c : Cfg) {n : Nat} (hn : n ≤ 255) :
    classify c n = (descriptorOf c (BitVec.ofNat 16 n)).getD (.fallback (bandOf n)) := by
  rw [descriptorOf_ofNat c hn, classify, if_pos ⟨by omega, by omega⟩, Int.toNat_natCast]
  cases findDef c n <;> rfl

/-- Outside `[0,255]` the lookup answers the universal unknown (R174). -/
theorem classify_outside (c : Cfg) {v : Int} (hv : v < 0 ∨ 255 < v) : classify c v = .universal :=
  if_neg (by omega)

/-- The id of a lookup's answer names that answer (R171, R175 (a)). -/
theorem descriptorOf_classify (c : Cfg) (v : Int) :
    descriptorOf c (descriptorId (classify c v)) = some (classify c v) := by
  by_cases hv : v < 0 ∨ 255 < v
  · rw [classify_outside c hv]
    exact descriptorOf_universal c rfl
  · obtain ⟨n, rfl⟩ := Int.eq_ofNat_of_zero_le (a := v) (by omega)
    have hn : n ≤ 255 := by omega
    rw [classify_natCast c hn, descriptorOf_ofNat c hn]
    cases hf : findDef c n with
    | none => exact descriptorOf_fallback c (bandOf n) (Nat.mod_eq_of_lt (by omega))
    | some e => exact (descriptorOf_ofNat c hn).trans (by rw [hf]; rfl)

/-- In `[0,255]` the lookup does not answer the id of the universal unknown (R175 (b)). -/
theorem descriptorId_classify_ne (c : Cfg) {v : Int} (h0 : 0 ≤ v) (h255 : v ≤ 255) :
    descriptorId (classify c v) ≠ 260#16 := by
  obtain ⟨n, rfl⟩ := Int.eq_ofNat_of_zero_le h0
  have hn : n ≤ 255 := by omega
  rw [classify_natCast c hn, descriptorOf_ofNat c hn]
  cases findDef c n with
  | none =>
    change BitVec.ofNat 16 (256 + (bandOf n).val) ≠ 260#16
    bv_omega
  | some e =>
    change BitVec.ofNat 16 n ≠ 260#16
    bv_omega

/-! ### The three commands -/

section
variable {s : State} {value : Value} {id : Half} {d : Descriptor}

/-- `OPC_LOOKUP` answers its descriptor in every frame context (R174, 60_exceptions.md R237). -/
theorem exec_opcLookup (hcfg : s.cfgFault = false) (hd : classify s.cfg value.toInt = d) :
    exec (.opcLookup value) s = .next
      (s.respond .ok (pair (descriptorId d) (lenField (descriptorLen s.cfg d)))) := by
  subst hd
  rw [exec_eq_runCommand]
  exact runCommand_effect ((firstRaised_freeGate_eq_none _ s).mpr ⟨hcfg, rfl⟩) _

/-- An id that names a descriptor opens the gate of `OPC_ISVAR` and `OPC_DESC`. -/
theorem firstRaised_of_descriptorOf (hcfg : s.cfgFault = false)
    (hd : descriptorOf s.cfg id = some d) :
    firstRaised (freeGate (descriptorOf s.cfg id).isSome) s = none :=
  (firstRaised_freeGate_eq_none _ s).mpr ⟨hcfg, by rw [hd]; rfl⟩

/-- `OPC_DESC` of an id that names a descriptor (R177). -/
theorem exec_opcDesc (hcfg : s.cfgFault = false) (hd : descriptorOf s.cfg id = some d) :
    exec (.opcDesc id) s = .next
      (s.respond .ok (pair (codeField d) (lenField (descriptorLen s.cfg d)))) := by
  rw [exec_eq_runCommand]
  refine (runCommand_effect (firstRaised_of_descriptorOf hcfg hd) _).trans ?_
  rw [effectOf, hd, Option.elim_some]

/-- `OPC_ISVAR` of an id that names a descriptor (R176). -/
theorem exec_opcIsvar (hcfg : s.cfgFault = false) (hd : descriptorOf s.cfg id = some d) :
    exec (.opcIsvar id) s = .next (s.respond .ok (isVarResult (descriptorLen s.cfg d))) := by
  rw [exec_eq_runCommand]
  refine (runCommand_effect (firstRaised_of_descriptorOf hcfg hd) _).trans ?_
  rw [effectOf, hd, Option.elim_some]

end

/-! ### The obligations -/

/-- Settles O50: a code of `OPC_DEF` names its own descriptor, and a value of a band that is no code
names none. -/
theorem opcLookupClassifies : Obligations.OpcLookupClassifies := by
  intro s value hcfg hdistinct
  refine ⟨fun e he hcode hle => ?exact, fun hnone band len hband hlo hhi => ?band, fun hout => ?out⟩
  case exact =>
    have hd : classify s.cfg value.toInt = .defined e.code e.length := by
      rw [← hcode, classify_natCast _ hle, descriptorOf_ofNat _ hle, findDef_code hdistinct he]
      rfl
    rw [exec_opcLookup hcfg hd, descriptorId, pair_lenField]
    rfl
  case band =>
    obtain ⟨b, rfl, rfl⟩ := exists_band_of_mem hband
    obtain ⟨n, hvalue⟩ := Int.eq_ofNat_of_zero_le (a := value.toInt) (by omega)
    have hn : n ≤ 255 := by omega
    have hfind : findDef s.cfg n = none :=
      (findDef_eq_none_iff s.cfg n).mpr fun e he h => hnone e he (by rw [hvalue, h])
    have hd : classify s.cfg value.toInt = .fallback b := by
      rw [hvalue, classify_natCast _ hn, descriptorOf_ofNat _ hn, hfind,
        bandOf_eq (b := b) (by omega) (by omega)]
      rfl
    rw [exec_opcLookup hcfg hd, descriptorId, pair_lenField]
    rfl
  case out =>
    have hid : descriptorId .universal = BitVec.ofNat 16 260 := rfl
    rw [exec_opcLookup hcfg (classify_outside s.cfg hout), hid, pair_lenField]
    rfl

/-- Settles O51: each row of the table of ids names its descriptor, and an id of no row is an illegal
operand. -/
theorem descriptorAttributes : Obligations.DescriptorAttributes := by
  intro s id hcfg hdistinct
  refine ⟨fun code len hrow => ?_, fun hnone => ?_⟩
  · obtain ⟨d, hd, hcode, rfl⟩ := descriptorOf_of_row hdistinct hrow
    refine ⟨?_, exec_opcIsvar hcfg hd⟩
    rw [exec_opcDesc hcfg hd, hcode, pair_lenField]
    rfl
  · exact ⟨exec_illegalOperand (.inl hcfg) hnone, exec_illegalOperand (.inl hcfg) hnone⟩

/-- Settles O52: the id of an answer names the answer, and for a code of `OPC_DEF` that descriptor's
id and code field are the code. -/
theorem opcLookupIsTotalAndRoundTrips : Obligations.OpcLookupIsTotalAndRoundTrips := by
  intro s hcfg
  refine ⟨fun value => ⟨_, exec_opcLookup hcfg rfl, fun hout => ?outside, fun h0 h255 => ?inside⟩,
    fun c hc hmem => ?roundTrip⟩
  case outside => rw [extractLsb'_pair, classify_outside s.cfg hout, descriptorId]
  case inside =>
    rw [extractLsb'_pair]
    exact ⟨descriptorId_classify_ne s.cfg h0 h255, (descriptorOf_isSome_iff s.cfg _).mp
      (Option.isSome_of_eq_some (descriptorOf_classify s.cfg value.toInt))⟩
  case roundTrip =>
    obtain ⟨e, he⟩ := exists_findDef_of_mem hmem
    have hnames : descriptorOf s.cfg (BitVec.ofNat 16 c) = some (.defined c e.length) := by
      rw [descriptorOf_ofNat _ hc, he, Option.map_some]
    have hvalue : (BitVec.ofNat 32 c).toInt = c := by
      rw [BitVec.toInt_ofNat']
      exact Int.bmod_eq_of_le (by omega) (by omega)
    have hd : classify s.cfg (BitVec.ofNat 32 c).toInt = .defined c e.length := by
      rw [hvalue, classify_natCast _ hc, hnames, Option.getD_some]
    have hcode : codeField (.defined c e.length) = descriptorId (.defined c e.length) := rfl
    refine ⟨_, exec_opcLookup hcfg hd, extractLsb'_pair _ _, ?_⟩
    rw [exec_opcDesc hcfg hnames, hcode]
    rfl

end Sys2Proof.Machine

/-!
CERTIFICATE. Frame sync (43_frame_sync.md R192 to R198): which class `FRM_LOCATE` takes, what the
queries of a frame answer, and that the frame stays until `BUF_INIT`.
-/
namespace Sys2Proof.Machine

/-! ### The class that is located -/

/-- The match of the machine is that of 43_frame_sync.md R192, region by region. -/
theorem syncMatches_eq_true_iff (s : State) (e : SyncEntry) :
    syncMatches s.buf s.len.toNat e = true ↔ classMatches s e := by
  rw [syncMatches, Bool.and_eq_true, decide_eq_true_eq, beq_iff_eq, regionsEnd_le_iff]

/-- A matching class with no matching class before it is the one located (43_frame_sync.md R193). -/
theorem locateClass_eq_some {s : State} {j : Nat} {e : SyncEntry}
    (hj : s.cfg.syncTable[j]? = some e) (hmatch : classMatches s e)
    (hfirst : ∀ k < j, ∀ e', s.cfg.syncTable[k]? = some e' → ¬ classMatches s e') :
    locateClass s.cfg.syncTable s.buf s.len.toNat = some j := by
  obtain ⟨hlt, rfl⟩ := List.getElem?_eq_some_iff.mp hj
  refine List.findIdx?_eq_some_iff_getElem.mpr
    ⟨hlt, (syncMatches_eq_true_iff s _).mpr hmatch, fun k hk hk' => ?_⟩
  exact hfirst k hk _ (List.getElem?_eq_getElem _) ((syncMatches_eq_true_iff s _).mp hk')

/-- Without a matching class there is none to locate (43_frame_sync.md R193). -/
theorem locateClass_eq_none {s : State} (hnone : ∀ e ∈ s.cfg.syncTable, ¬ classMatches s e) :
    locateClass s.cfg.syncTable s.buf s.len.toNat = none :=
  List.findIdx?_eq_none_iff.mpr fun e he =>
    Bool.eq_false_iff.mpr fun h => hnone e he ((syncMatches_eq_true_iff s e).mp h)

/-! ### `FRM_LOCATE` -/

/-- `FRM_LOCATE` over a good verdict and without a frame (43_frame_sync.md R193). -/
theorem exec_frmLocate {s : State} (hs : Ready s) (hl : locatable s = true) :
    exec .frmLocate s = .next (locateEffect s) :=
  exec_of_ready hs trivial hl rfl

/-- `FRM_LOCATE` in any other state of a context that is not aborted (43_frame_sync.md R193). -/
theorem exec_frmLocate_refused {s : State} (hcfg : s.cfgFault = false) (habort : s.aborted = false)
    (h : s.len = 0#16 ∨ (s.verdict ≠ .passed ∧ s.verdict ≠ .corrected) ∨ s.fvalid = true) :
    exec .frmLocate s = .next { s with status := .stateError, result := 0#32 } := by
  refine exec_stateError hcfg habort trivial (Bool.eq_false_iff.mpr fun hl => ?_)
  obtain ⟨hlen, hgood, hfree⟩ := (locatable_eq_true s).mp hl
  obtain hempty | ⟨hpassed, hcorrected⟩ | hframe := h
  · exact hlen hempty
  · exact hgood.elim hpassed hcorrected
  · exact Bool.false_ne_true (hfree.symm.trans hframe)

/-- Settles O53: `locateClass` finds the first class that matches, and its absence, as
43_frame_sync.md R192 and R193 describe them. -/
theorem locateTakesTheFirstMatch : Obligations.LocateTakesTheFirstMatch := by
  intro s hcfg habort
  refine ⟨fun hlen hgood hfree => ?_, exec_frmLocate_refused hcfg habort⟩
  rw [exec_frmLocate ⟨hcfg, habort, hlen⟩ ((locatable_eq_true s).mpr ⟨hlen, hgood, hfree⟩),
    locateEffect]
  refine ⟨fun j e hj hmatch hfirst => ?_, fun hnone => ?_⟩
  · rw [locateClass_eq_some hj hmatch hfirst]
    rfl
  · rw [locateClass_eq_none hnone]
    rfl

/-! ### The frame stays -/

/-- A frame needs a valid configuration and a loaded buffer (10_state.md R39). -/
theorem Inv.framed {s : State} (hs : Inv s) (hframe : s.fvalid = true)
    (habort : s.aborted = false) : Framed s := by
  have hlen : s.len ≠ 0#16 := fun hempty => by
    obtain ⟨-, hfree, -⟩ := hs.emptyContext hempty
    exact Bool.false_ne_true (hfree.symm.trans hframe)
  have hcfg : s.cfgFault = false := Bool.eq_false_iff.mpr fun h => hlen (hs.faultyIsEmpty h)
  exact ⟨⟨hcfg, habort, hlen⟩, hframe⟩

/-- Settles O21: a frame has a verdict, so `verdictIsTerminal` keeps the buffer; of the effects,
only a new context writes `LEN`, and `FRM_LOCATE` constructs a frame only where there is none. -/
theorem frameIsImmutable : Obligations.FrameIsImmutable := by
  intro i s hs hframe hi
  have hverdict : s.verdict ≠ .unset := fun h =>
    Bool.false_ne_true ((hs.fvalid_of_unset h).symm.trans hframe)
  refine ⟨?keeps, fun habort => ?refused⟩
  case keeps =>
    obtain ⟨t, ht, -, -, hbuf⟩ := verdictIsTerminal i s hverdict hi
    refine ⟨t, ht, ?_⟩
    obtain ⟨r, -, rfl⟩ | heff := exec_effect ht
    · exact ⟨(raise_fvalid s r).trans hframe, raise_fclass s r, raise_len s r, hbuf⟩
    · cases heff with
      | context v => exact absurd rfl (hi _)
      | frame v _ hl =>
        obtain ⟨-, -, hfree⟩ := (locatable_eq_true s).mp hl
        exact absurd (hfree.symm.trans hframe) Bool.false_ne_true
      | answer | write | passed | corrected | failed | cache => exact ⟨hframe, rfl, rfl, hbuf⟩
  case refused =>
    obtain ⟨⟨hcfg, -, -⟩, -⟩ := hs.framed hframe habort
    exact exec_frmLocate_refused hcfg habort (.inr (.inr hframe))

/-! ### The frame queries -/

section
variable {s : State} {e : SyncEntry}

theorem framed_eq_true_of_framed (hs : Framed s) : framed s = true :=
  (framed_eq_true s).mpr ⟨hs.1.loaded, hs.2⟩

/-- `FRM_HASSUB` of a frame (43_frame_sync.md R196). -/
theorem exec_frmHassub (hs : Framed s) (he : s.cfg.syncTable[s.fclass.toNat]? = some e) :
    exec .frmHassub s = .next (s.respond .ok ((BitVec.ofBool e.hasSub).setWidth 32)) := by
  rw [exec_of_ready (i := .frmHassub) hs.1 trivial (framed_eq_true_of_framed hs) rfl, effectOf,
    currentClass_eq he]

/-- `FRM_GETSUB` of a frame whose class has a sub-channel (43_frame_sync.md R197). -/
theorem exec_frmGetsub (hs : Framed s) (he : s.cfg.syncTable[s.fclass.toNat]? = some e)
    (hsub : e.hasSub = true) : exec .frmGetsub s = .next (getsubEffect s) := by
  refine exec_of_ready hs.1 trivial (Bool.and_eq_true_iff.mpr ⟨framed_eq_true_of_framed hs, ?_⟩) rfl
  rw [currentClass_eq he, hsub]

/-- `FRM_PAYLOAD` of a segment the class has (43_frame_sync.md R198). -/
theorem exec_frmPayload {seg : BitVec 8} (hs : Framed s)
    (he : s.cfg.syncTable[s.fclass.toNat]? = some e)
    (hseg : seg = 1#8 ∨ seg = 2#8 ∧ e.p2Len ≠ 0) :
    exec (.frmPayload seg) s = .next (s.respond .ok (payloadBounds e seg)) := by
  have hpresent : (!(seg.toNat == 2 && (currentClass s).p2Len == 0)) = true := by
    rw [currentClass_eq he]
    obtain rfl | ⟨rfl, hp2⟩ := hseg
    · rfl
    · simpa using hp2
  rw [exec_of_ready (i := .frmPayload seg) hs.1 (hseg.imp_right And.left)
    (Bool.and_eq_true_iff.mpr ⟨framed_eq_true_of_framed hs, hpresent⟩) rfl, effectOf,
    currentClass_eq he]

/-- A filled cache is returned as it is (43_frame_sync.md R197). -/
theorem getsubEffect_of_filled (h : s.subc = true) : getsubEffect s = s.respond .ok s.subview :=
  if_pos h

/-- An empty cache is filled with the view of the class (43_frame_sync.md R197). -/
theorem getsubEffect_of_empty (h : s.subc = false)
    (he : s.cfg.syncTable[s.fclass.toNat]? = some e) :
    getsubEffect s = (s.fillSub (subView e)).respond .ok (subView e) := by
  rw [getsubEffect, if_neg (Bool.eq_false_iff.mp h), currentClass_eq he]

/-- In a state of the invariant the cache makes no difference to `FRM_GETSUB`: a filled cache
already holds the view of the class (10_state.md R31). -/
theorem Inv.getsubEffect_eq (hs : Inv s) (he : s.cfg.syncTable[s.fclass.toNat]? = some e) :
    getsubEffect s = (s.fillSub (subView e)).respond .ok (subView e) := by
  cases hc : s.subc with
  | false => exact getsubEffect_of_empty hc he
  | true =>
    have hfresh : s.subview = subView e := currentClass_eq he ▸ hs.cacheFresh hc
    have hfilled : s.fillSub (subView e) = s := by rw [State.fillSub, ← hfresh, ← hc]
    rw [getsubEffect_of_filled hc, hfilled, hfresh]

end

/-- Settles O54, query by query. -/
theorem frameQueriesReturnTheClass : Obligations.FrameQueriesReturnTheClass := by
  intro s e hs he
  refine ⟨?hassub, fun hsub hempty => ?fill, fun hsub hfilled => ?cached,
    exec_frmPayload hs he (.inl rfl), fun hp2 => exec_frmPayload hs he (.inr ⟨rfl, hp2⟩)⟩
  case hassub =>
    rw [exec_frmHassub hs he]
    cases e.hasSub <;> rfl
  case fill =>
    rw [exec_frmGetsub hs he hsub, getsubEffect_of_empty hempty he]
    rfl
  case cached =>
    rw [exec_frmGetsub hs he hsub, getsubEffect_of_filled hfilled]
    rfl

/-- Settles O55: the first call leaves the cache filled with the view of the class, and a call on
that state returns it and changes nothing. -/
theorem getsubAlwaysReturnsTheView : Obligations.GetsubAlwaysReturnsTheView := by
  intro s e hinv hs he hsub
  have hfirst := exec_frmGetsub hs he hsub
  rw [hinv.getsubEffect_eq he] at hfirst
  refine ⟨_, hfirst, rfl, ?_⟩
  rw [exec_frmGetsub (s := (s.fillSub (subView e)).respond .ok (subView e)) hs he hsub,
    getsubEffect_of_filled rfl]
  rfl

end Sys2Proof.Machine

/-!
CERTIFICATE. The life of a frame context (44_control.md R223): the commands its table refuses, and
the moves it allows.
-/
namespace Sys2Proof.Machine

/-! ### The states of a frame context -/

section
variable {s : State}

theorem contextState_eq_dead_iff : contextState s = .dead ↔ s.aborted = true := by
  unfold contextState
  split
  · simp [*]
  · split
    · simp [*]
    · cases s.fvalid <;> cases s.verdict <;> simp [*]

theorem contextState_eq_empty_iff :
    contextState s = .empty ↔ s.aborted = false ∧ s.len = 0#16 := by
  unfold contextState
  split
  · simp [*]
  · split
    · simp [*]
    · cases s.fvalid <;> cases s.verdict <;> simp [*]

theorem contextState_eq_framed (hs : Framed s) : contextState s = .framed := by
  obtain ⟨⟨-, habort, hlen⟩, hframe⟩ := hs
  simp [contextState, habort, hlen, hframe]

theorem contextState_eq_loading (hs : Ready s) (hfree : s.fvalid = false)
    (hverdict : s.verdict = .unset) : contextState s = .loading := by
  obtain ⟨-, habort, hlen⟩ := hs
  simp [contextState, habort, hlen, hfree, hverdict]

theorem contextState_eq_valid (hs : Ready s) (hfree : s.fvalid = false)
    (hverdict : s.verdict = .passed ∨ s.verdict = .corrected) : contextState s = .valid := by
  obtain ⟨-, habort, hlen⟩ := hs
  obtain hverdict | hverdict := hverdict <;>
    simp [contextState, habort, hlen, hfree, hverdict]

theorem contextState_eq_rejected (hs : Ready s) (hfree : s.fvalid = false)
    (hverdict : s.verdict = .failed) : contextState s = .rejected := by
  obtain ⟨-, habort, hlen⟩ := hs
  simp [contextState, habort, hlen, hfree, hverdict]

/-- The write phase is the state `LOADING`: without a verdict there is no frame
(10_state.md R39 (b)). -/
theorem Inv.contextState_of_writable (hs : Inv s) (hw : Writable s) : contextState s = .loading :=
  contextState_eq_loading hw.1 (hs.fvalid_of_unset hw.2) hw.2

/-- `FRM_LOCATE` may run in the state `VALID` alone (43_frame_sync.md R193). -/
theorem contextState_of_locatable (hs : Ready s) (hl : locatable s = true) :
    contextState s = .valid := by
  obtain ⟨-, hverdict, hfree⟩ := (locatable_eq_true s).mp hl
  exact contextState_eq_valid hs hfree hverdict

/-- The frame queries may run in the state `FRAMED` alone (43_frame_sync.md R196). -/
theorem contextState_of_framed (hs : Ready s) (hf : framed s = true) : contextState s = .framed :=
  contextState_eq_framed ⟨hs, ((framed_eq_true s).mp hf).2⟩

/-- A loaded buffer needs a valid configuration (60_exceptions.md R238). -/
theorem Inv.ready (hs : Inv s) (habort : s.aborted = false) (hlen : s.len ≠ 0#16) : Ready s :=
  ⟨Bool.eq_false_iff.mpr fun h => hlen (hs.faultyIsEmpty h), habort, hlen⟩

end

/-! ### The refusing cells -/

/-- Only a frame-dependent command is refused, in `DEAD` with `FRAME_ABORTED` and in every other
state with `STATE_ERROR`. -/
theorem refusedIn_eq_some {c : ContextState} {i : Instr} {st : Status}
    (h : refusedIn c i = some st) :
    frameDependent i = true ∧ st = if c = .dead then .frameAborted else .stateError := by
  cases i with
  | bufInit | opcLookup | opcIsvar | opcDesc | rdReg => cases c <;> cases h
  | _ => cases c <;> cases h <;> exact ⟨rfl, rfl⟩

/-- A command that passes its state check has no refusing cell: the checks of the command rules
refuse all that the table refuses. -/
theorem Inv.refusedIn_of_stateOk {s : State} (hs : Inv s) {i : Instr} (hready : Ready s)
    (h : (gateOf s i).stateOk = true) : refusedIn (contextState s) i = none := by
  have hloading (hi : writesBits i = true ∨ validates i = true) : contextState s = .loading := by
    rw [stateOk_of_writesOrValidates s hi] at h
    exact hs.contextState_of_writable ⟨hready, ((writePhase_eq_true s).mp h).2⟩
  cases i with
  | bufInit | opcLookup | opcIsvar | opcDesc | rdReg => cases contextState s <;> rfl
  | bufPut | bitSet | bitFlip => rw [hloading (.inl rfl)]; rfl
  | crcCorr | crc9Chk => rw [hloading (.inr rfl)]; rfl
  | bitGet | bitNsb | bufGetr | crc8Calc =>
    obtain ⟨-, habort, hlen⟩ := hready
    cases hc : contextState s with
    | dead => exact absurd (contextState_eq_dead_iff.mp hc) (Bool.eq_false_iff.mp habort)
    | empty => exact absurd (contextState_eq_empty_iff.mp hc).2 hlen
    | loading | valid | rejected | framed => rfl
  | frmLocate => rw [contextState_of_locatable hready h]; rfl
  | frmHassub => rw [contextState_of_framed hready h]; rfl
  | frmGetsub | frmPayload =>
    rw [contextState_of_framed hready (Bool.and_eq_true_iff.mp h).1]; rfl

theorem gateOf_frameDependent (s : State) (i : Instr) :
    (gateOf s i).frameDependent = frameDependent i := by
  cases i with
  | crcCorr t => simp only [gateOf]; cases s.cfg.corrTables[t.toNat]? <;> rfl
  | crc9Chk t => simp only [gateOf]; cases s.cfg.crc9Tables[t.toNat]? <;> rfl
  | _ => rfl

/-- An aborted context answers a frame-dependent command with legal operands `FRAME_ABORTED`
(60_exceptions.md R237). -/
theorem exec_frameAborted {i : Instr} {s : State} (hcfg : s.cfgFault = false)
    (habort : s.aborted = true) (hlegal : operandsLegal s.cfg i)
    (hi : frameDependent i = true) :
    exec i s = .next { s with status := .frameAborted, result := 0#32 } := by
  have hraised : firstRaised (gateOf s i) s = some .frameAborted := by
    simp [firstRaised, hcfg, habort, (gateOf_legal_iff s i).mpr hlegal, gateOf_frameDependent, hi]
  rw [exec_eq_runCommand, runCommand_raise hraised]
  rfl

/-- Settles O57: in `DEAD` the abort check answers; elsewhere the state check fails, because a
command that passes it has no refusing cell. -/
theorem contextStateRefusals : Obligations.ContextStateRefusals := by
  intro i s st hs hcfg hlegal hrefused
  obtain ⟨hi, rfl⟩ := refusedIn_eq_some hrefused
  split
  next hdead => exact exec_frameAborted hcfg (contextState_eq_dead_iff.mp hdead) hlegal hi
  next halive =>
    have habort : s.aborted = false :=
      Bool.eq_false_iff.mpr (contextState_eq_dead_iff.not.mp halive)
    refine exec_stateError hcfg habort hlegal (Bool.eq_false_iff.mpr fun h => ?_)
    have hready : Ready s := ⟨hcfg, habort, loaded_of_stateOk hi h⟩
    exact Option.some_ne_none _ (hrefused.symm.trans (hs.refusedIn_of_stateOk hready h))

/-! ### The moves the table allows -/

/-- Every command may leave the context in its state. -/
theorem mayMove_self (c : ContextState) (i : Instr) : mayMove c i c := by
  cases i with
  | bufInit => cases c <;> exact .inl rfl
  | bufPut | bitSet | bitFlip | crcCorr | crc9Chk =>
    cases c with
    | loading => exact .head _
    | empty | valid | rejected | framed | dead => rfl
  | bitGet | bufGetr | crc8Calc =>
    cases c with
    | empty => rfl
    | loading | valid | rejected | framed | dead => exact .inl rfl
  | frmLocate =>
    cases c with
    | valid => exact .head _
    | empty | loading | rejected | framed | dead => rfl
  | bitNsb | opcLookup | opcIsvar | opcDesc | frmHassub | frmGetsub | frmPayload | rdReg =>
    cases c <;> rfl

theorem mayMove_bufInit (c : ContextState) (len : Half) : mayMove c (.bufInit len) .loading := by
  cases c <;> exact .inr rfl

theorem mayMove_of_writesBits {i : Instr} (hi : writesBits i = true) (c : ContextState) :
    mayMove .loading i c ↔ c ∈ [.loading, .dead] := by
  obtain ⟨a, n, d, rfl⟩ | ⟨a, rfl⟩ | ⟨a, rfl⟩ := writesBits_eq_true hi <;> rfl

theorem mayMove_of_validates {i : Instr} (hi : validates i = true) (c : ContextState) :
    mayMove .loading i c ↔ c ∈ [.loading, .valid, .rejected, .dead] := by
  obtain ⟨t, ms, cs, seed, rfl⟩ | ⟨t, ms, cs, rfl⟩ := validates_eq_true hi <;> rfl

theorem mayMove_frmLocate (c : ContextState) :
    mayMove .valid .frmLocate c ↔ c ∈ [.valid, .framed] := Iff.rfl

/-! ### The moves of the commands -/

section
variable {s : State}

/-- The way to `DEAD`: a bounds check is reached only where the cell says "ok", and there the table
allows the move. -/
theorem Inv.mayMove_dead (hs : Inv s) {i : Instr} {r : Raised} (hready : Ready s)
    (hstate : (gateOf s i).stateOk = true) (hbounds : (gateOf s i).bounds = some r) :
    mayMove (contextState s) i .dead := by
  have hcell := hs.refusedIn_of_stateOk hready hstate
  generalize contextState s = c at hcell ⊢
  cases i with
  | bufPut | bitSet | bitFlip =>
    cases c <;> cases hcell
    exact (mayMove_of_writesBits rfl _).mpr (by decide)
  | crcCorr | crc9Chk =>
    cases c <;> cases hcell
    exact (mayMove_of_validates rfl _).mpr (by decide)
  | bitGet | bufGetr | crc8Calc =>
    cases c with
    | empty => cases hcell
    | loading | valid | rejected | framed | dead => exact .inr rfl
  | bufInit | bitNsb | opcLookup | opcIsvar | opcDesc | frmLocate | frmHassub | frmGetsub
  | frmPayload | rdReg => cases hbounds

/-- A raised fault leaves the context in its state, or is frame-fatal and aborts it
(60_exceptions.md R233, R236). -/
theorem contextState_raise (s : State) (r : Raised) :
    contextState (s.raise r) = if frameFatal r then .dead else contextState s := by
  cases r <;> rfl

/-- Only a bounds check raises a frame-fatal fault (60_exceptions.md R236). -/
theorem bounds_of_frameFatal {i : Instr} {r : Raised} (h : firstRaised (gateOf s i) s = some r)
    (hr : frameFatal r = true) :
    (gateOf s i).bounds = some r ∧ (gateOf s i).stateOk = true ∧ s.aborted = false := by
  obtain ⟨rfl, -⟩ | ⟨rfl, -⟩ | ⟨rfl, -⟩ | ⟨rfl, -⟩ | ⟨hbounds, hstate, habort⟩ :=
    firstRaised_eq_some h
  case inr.inr.inr.inr =>
    cases hi : frameDependent i with
    | true => exact ⟨hbounds, hstate, habort ((gateOf_frameDependent s i).trans hi)⟩
    | false => cases (bounds_of_not_frameDependent hi).symm.trans hbounds
  all_goals cases hr

theorem Inv.mayMove_raise (hs : Inv s) {i : Instr} {r : Raised}
    (h : firstRaised (gateOf s i) s = some r) :
    mayMove (contextState s) i (contextState (s.raise r)) := by
  rw [contextState_raise]
  split
  next hfatal =>
    obtain ⟨hbounds, hstate, habort⟩ := bounds_of_frameFatal h hfatal
    exact hs.mayMove_dead (hs.ready habort (loaded_of_frameFatal h hfatal)) hstate hbounds
  next => exact mayMove_self _ i

/-- The way to `VALID` or `REJECTED`: a validation starts in `LOADING` and leaves a verdict and no
frame. -/
theorem Inv.mayMove_verdict (hs : Inv s) {i : Instr} {t : State} (hi : validates i = true)
    (hw : Writable s) (ht : Ready t) (hfree : t.fvalid = false) (hverdict : t.verdict ≠ .unset) :
    mayMove (contextState s) i (contextState t) := by
  rw [hs.contextState_of_writable hw, mayMove_of_validates hi]
  cases hv : t.verdict with
  | unset => exact absurd hv hverdict
  | passed => rw [contextState_eq_valid ht hfree (.inl hv)]; decide
  | corrected => rw [contextState_eq_valid ht hfree (.inr hv)]; decide
  | failed => rw [contextState_eq_rejected ht hfree hv]; decide

theorem Inv.mayMove_effect (hs : Inv s) {i : Instr} {t : State} (hlegal : operandsLegal s.cfg i)
    (h : Effect s i t) : mayMove (contextState s) i (contextState t) := by
  cases h with
  | answer | write | cache => exact mayMove_self _ _
  | @context len v hcfg =>
    have hlen : len ≠ 0#16 := fun hzero => by
      obtain ⟨hpos, -⟩ := hlegal
      subst hzero
      cases hpos
    have hnew : Ready ((s.newContext len).respond .ok v) := ⟨hcfg, rfl, hlen⟩
    rw [contextState_eq_loading hnew rfl rfl]
    exact mayMove_bufInit _ _
  | passed v hi hw => exact hs.mayMove_verdict hi hw hw.1 (hs.fvalid_of_unset hw.2) nofun
  | corrected v hw => exact hs.mayMove_verdict rfl hw hw.1 (hs.fvalid_of_unset hw.2) nofun
  | failed v hi hw => exact hs.mayMove_verdict hi hw hw.1 (hs.fvalid_of_unset hw.2) nofun
  | @frame j _ v hready hl =>
    have hnew : Framed ((s.setFrame (BitVec.ofNat 8 j)).respond .ok v) := ⟨hready, rfl⟩
    rw [contextState_of_locatable hready hl, contextState_eq_framed hnew, mayMove_frmLocate]
    decide

end

/-- Settles O58: a command ends in a fault or in an effect, and the table allows the move of
each. -/
theorem contextStateMoves : Obligations.ContextStateMoves := by
  intro i s hs
  obtain ⟨r, hr, h⟩ | ⟨hnone, h⟩ := exec_cases i s
  · exact ⟨_, h, hs.mayMove_raise hr⟩
  · obtain ⟨-, hlegal, -⟩ := (firstRaised_eq_none _ s).mp hnone
    exact ⟨_, h, hs.mayMove_effect ((gateOf_legal_iff s i).mp hlegal) (effect_effectOf hnone)⟩

end Sys2Proof.Machine

/-!
CERTIFICATE. The step on a command and on an empty port (60_exceptions.md R230, R250), and the
faults of every command (R231 to R251): completion, the table of statuses, per-call and frame-fatal
faults, a faulty configuration, an aborted context.
-/
namespace Sys2Proof.Machine

/-! ### The step -/

/-- Settles O1: of the four kinds of step only the command fits the word. -/
theorem stepRunsDecodedCommand : Obligations.StepRunsDecodedCommand := by
  intro s w rest i hport hdecode
  obtain ⟨hs, -⟩ | ⟨c, rest', hs, -⟩ | ⟨w', rest', i', hs, hi, hstep⟩ | ⟨w', rest', r, hs, hr, -⟩ :=
    step_cases s <;> cases hport.symm.trans hs
  · cases hdecode.symm.trans hi
    exact hstep
  · cases hdecode.symm.trans hr

/-- Settles O3: of the four kinds of step only waiting fits an empty port. -/
theorem blockWaitsWithoutInput : Obligations.BlockWaitsWithoutInput := by
  intro s hport
  obtain ⟨-, hstep⟩ | ⟨c, rest, hs, -⟩ | ⟨w, rest, i, hs, -⟩ | ⟨w, rest, r, hs, -⟩ := step_cases s
  · exact hstep
  all_goals cases hport.symm.trans hs

/-! ### Completion, and what no command writes -/

/-- The configuration, what reset derived from it, and the host's inputs still to come. -/
def SameConfigAndPort (s t : State) : Prop :=
  t.cfg = s.cfg ∧ t.cfgFault = s.cfgFault ∧ t.cfgCause = s.cfgCause ∧ t.port = s.port

theorem raise_sameConfigAndPort (s : State) (r : Raised) : SameConfigAndPort s (s.raise r) := by
  rw [raise_frame]
  exact ⟨rfl, rfl, rfl, rfl⟩

theorem Effect.sameConfigAndPort {i : Instr} {s t : State} (h : Effect s i t) :
    SameConfigAndPort s t := by
  cases h <;> exact ⟨rfl, rfl, rfl, rfl⟩

/-- Settles O12: a command ends in a fault or in an effect, and neither writes the configuration. -/
theorem everyCommandCompletesAndKeepsConfig : Obligations.EveryCommandCompletesAndKeepsConfig := by
  intro i s
  obtain ⟨r, -, h⟩ | ⟨hnone, h⟩ := exec_cases i s
  · exact ⟨_, h, raise_sameConfigAndPort s r⟩
  · exact ⟨_, h, (effect_effectOf hnone).sameConfigAndPort⟩

/-! ### The table of statuses -/

theorem indexError_of_indexCheck {s : State} {i : Half} {r : Raised}
    (h : indexCheck s i = some r) : r = .indexError i := by
  unfold indexCheck at h
  split at h <;> cases h
  rfl

theorem rangeError_of_rangeCheck {bad : Bool} {x : Half} {r : Raised}
    (h : rangeCheck bad x = some r) : r = .rangeError x := by
  unfold rangeCheck at h
  split at h <;> cases h
  rfl

/-- A bounds check names the offending operand of its command (60_exceptions.md R236), and the table
of R232 marks its status. -/
theorem raised_of_bounds {i : Instr} {s : State} {r : Raised} (h : (gateOf s i).bounds = some r) :
    (r = .indexError (faultOperand i) ∨ r = .rangeError (faultOperand i))
      ∧ raisedStatus r ∈ canRaise i := by
  cases i with
  | bitGet | bitSet | bitFlip =>
    obtain rfl := indexError_of_indexCheck h
    exact ⟨.inl rfl, .head _⟩
  | bufPut | bufGetr | crc8Calc =>
    obtain rfl := rangeError_of_rangeCheck h
    exact ⟨.inr rfl, .head _⟩
  | crcCorr t =>
    simp only [gateOf] at h
    cases hT : s.cfg.corrTables[t.toNat]? <;> rw [hT] at h
    · cases h
    · obtain rfl := rangeError_of_rangeCheck h
      exact ⟨.inr rfl, .head _⟩
  | crc9Chk t =>
    simp only [gateOf] at h
    cases hU : s.cfg.crc9Tables[t.toNat]? <;> rw [hU] at h
    · cases h
    · obtain rfl := rangeError_of_rangeCheck h
      exact ⟨.inr rfl, .head _⟩
  | bufInit | bitNsb | opcLookup | opcIsvar | opcDesc | frmLocate | frmHassub | frmGetsub
  | frmPayload | rdReg => cases h

/-- Only `RD_REG` runs in a faulty configuration (60_exceptions.md R238). -/
theorem needsConfig_iff (s : State) (i : Instr) :
    (gateOf s i).needsConfig = true ↔ ∀ sel, i ≠ .rdReg sel := by
  cases i with
  | rdReg sel => exact iff_of_false Bool.false_ne_true fun h => h sel rfl
  | crcCorr t =>
    simp only [gateOf]
    cases s.cfg.corrTables[t.toNat]? <;> exact iff_of_true rfl nofun
  | crc9Chk t =>
    simp only [gateOf]
    cases s.cfg.crc9Tables[t.toNat]? <;> exact iff_of_true rfl nofun
  | _ => exact iff_of_true rfl nofun

/-- Only a frame-dependent command has a state check (60_exceptions.md R237). -/
theorem stateOk_of_not_frameDependent {i : Instr} (s : State) (hi : frameDependent i = false) :
    (gateOf s i).stateOk = true := by
  cases i with
  | bufInit | opcLookup | opcIsvar | opcDesc | rdReg => rfl
  | _ => cases hi

theorem configFault_mem_canRaise {i : Instr} (hi : ∀ sel, i ≠ .rdReg sel) :
    Status.configFault ∈ canRaise i := by
  cases i with
  | rdReg sel => exact absurd rfl (hi sel)
  | _ => simp [canRaise]

/-- A command whose operand check can fail has the mark `ILL_OP` (60_exceptions.md R232). -/
theorem illegalOperand_mem_canRaise {i : Instr} {s : State} (h : (gateOf s i).legal = false) :
    Status.illegalOperand ∈ canRaise i := by
  cases i with
  | bitGet | bitSet | bitFlip | bitNsb | opcLookup | frmLocate | frmHassub | frmGetsub => cases h
  | _ => simp [canRaise]

theorem frameFaults_mem_canRaise {i : Instr} (hi : frameDependent i = true) :
    Status.frameAborted ∈ canRaise i ∧ Status.stateError ∈ canRaise i := by
  cases i with
  | bufInit | opcLookup | opcIsvar | opcDesc | rdReg => cases hi
  | _ => simp [canRaise]

/-- What the check sequence of a command raises has a mark in the command's row of
60_exceptions.md R232. -/
theorem raisedStatus_mem_canRaise {i : Instr} {s : State} {r : Raised}
    (h : firstRaised (gateOf s i) s = some r) : raisedStatus r ∈ canRaise i := by
  obtain ⟨rfl, hconfig, -⟩ | ⟨rfl, hlegal⟩ | ⟨rfl, hframe, -⟩ | ⟨rfl, hstate⟩ | ⟨hbounds, -⟩ :=
    firstRaised_eq_some h
  · exact configFault_mem_canRaise ((needsConfig_iff s i).mp hconfig)
  · exact illegalOperand_mem_canRaise hlegal
  · exact (frameFaults_mem_canRaise ((gateOf_frameDependent s i).symm.trans hframe)).1
  · have hframe : frameDependent i = true := by
      rw [← Bool.not_eq_false]
      exact fun hi => Bool.false_ne_true (hstate.symm.trans (stateOk_of_not_frameDependent s hi))
    exact (frameFaults_mem_canRaise hframe).2
  · exact (raised_of_bounds hbounds).2

/-- Settles O13: the checks of a command raise what its row marks, and an effect answers `OK`. -/
theorem statusesOfEachCommand : Obligations.StatusesOfEachCommand := by
  intro i s
  obtain ⟨r, hr, h⟩ | ⟨hnone, h⟩ := exec_cases i s
  · exact ⟨_, h, .inr (raise_status s r ▸ raisedStatus_mem_canRaise hr), fun _ => raise_result s r⟩
  · have hok := (effect_effectOf hnone).status_eq_ok
    exact ⟨_, h, .inl hok, fun hne => absurd hok hne⟩

/-! ### Per-call and frame-fatal faults -/

/-- A fault that is not frame-fatal writes the response alone (60_exceptions.md R233). -/
theorem raise_eq_respond {r : Raised} (s : State) (h : frameFatal r = false) :
    s.raise r = s.respond (raisedStatus r) 0#32 := by
  cases r with
  | indexError | rangeError => cases h
  | _ => rfl

/-- The two statuses of the frame-fatal faults (60_exceptions.md R236). -/
theorem frameFatal_iff (r : Raised) :
    frameFatal r = true ↔ raisedStatus r ∈ [Status.indexError, .rangeError] := by
  cases r <;> simp [frameFatal, raisedStatus]

/-- Settles O14: such a status is no effect's and no frame-fatal fault's. -/
theorem perCallFaultsChangeOnlyTheResponse : Obligations.PerCallFaultsChangeOnlyTheResponse := by
  refine ⟨fun i s t h hstatus => ?_, fun s => rfl⟩
  obtain ⟨r, -, rfl⟩ | heff := exec_effect h
  · rw [raise_status] at hstatus ⊢
    have hcall : frameFatal r = false := by
      cases r with
      | indexError | rangeError => simp [raisedStatus] at hstatus
      | _ => rfl
    exact raise_eq_respond s hcall
  · simp [heff.status_eq_ok] at hstatus

/-- `RD_REG` 5, 6 and 3 show what a frame-fatal fault records (60_exceptions.md R236). -/
theorem fatalState_readable (s : State) (st : Status) (x : Half) :
    (∃ u, exec (.rdReg 5#8) (fatalState s st x) = .next u
        ∧ u.result = if st = .indexError then 1#32 else 2#32)
      ∧ (∃ u, exec (.rdReg 6#8) (fatalState s st x) = .next u ∧ u.result = x.setWidth 32)
      ∧ ∃ u, exec (.rdReg 3#8) (fatalState s st x) = .next u ∧ u.result.getLsbD 1 = true := by
  refine ⟨⟨_, exec_rdReg_of_some _ (r := .faultCause) rfl, ?_⟩,
    ⟨_, exec_rdReg_of_some _ (r := .faultInfo) rfl, rfl⟩,
    ⟨_, exec_rdReg_of_some _ (r := .flags) rfl, getLsbD_flagsWord _ 1⟩⟩
  by_cases h : st = .indexError <;> simp [fatalState, readReg, h]

/-- A frame-fatal fault of a command records the command's offending operand
(60_exceptions.md R236). -/
theorem raise_eq_fatalState {i : Instr} {r : Raised} (s : State)
    (h : r = .indexError (faultOperand i) ∨ r = .rangeError (faultOperand i)) :
    s.raise r = fatalState s (raisedStatus r) (faultOperand i) := by
  obtain rfl | rfl := h
  · exact raise_indexError s _
  · exact raise_rangeError s _

/-- Settles O15: such a status comes from the bounds check, which is reached only in a context that
is not aborted and names the command's offending operand. -/
theorem frameFatalFaultsRecordThemselves : Obligations.FrameFatalFaultsRecordThemselves := by
  intro i s t h hstatus
  obtain ⟨r, hr, rfl⟩ | heff := exec_effect h
  · rw [raise_status] at hstatus ⊢
    obtain ⟨hbounds, -, habort⟩ := bounds_of_frameFatal hr ((frameFatal_iff r).mpr hstatus)
    rw [raise_eq_fatalState s (raised_of_bounds hbounds).1]
    exact ⟨habort, rfl, fatalState_readable s _ _⟩
  · simp [heff.status_eq_ok] at hstatus

/-! ### A faulty configuration -/

/-- In a faulty configuration the first check answers (60_exceptions.md R238, R240 step 2). -/
theorem exec_configFault {i : Instr} {s : State} (hcfg : s.cfgFault = true)
    (hi : ∀ sel, i ≠ .rdReg sel) :
    exec i s = .next { s with status := .configFault, result := 0#32 } := by
  have hraised : firstRaised (gateOf s i) s = some .configFault := by
    simp [firstRaised, (needsConfig_iff s i).mpr hi, hcfg]
  rw [exec_eq_runCommand, runCommand_raise hraised]
  rfl

theorem applyReset_cfgFault_eq_false_iff (c : Cfg) (s : State) :
    (applyReset c s).cfgFault = false ↔ checkCfg c = 0 := by
  simp [applyReset, State.resetWith]

/-- Settles O16: only `RD_REG` passes the configuration check, and what `CFGFAULT` holds is reset's
to write. -/
theorem configFaultRefusesAllButReadReg : Obligations.ConfigFaultRefusesAllButReadReg := by
  intro i s hcfg
  refine ⟨exec_configFault hcfg, ?_, ⟨_, exec_rdReg_of_some s (r := .flags) rfl, ?_⟩,
    exec_rdReg_of_some s (r := .cfgCause) rfl, ?_, fun c => applyReset_cfgFault_eq_false_iff c s⟩
  · rintro sel rfl hsel
    obtain ⟨r, hr⟩ := Option.isSome_iff_exists.mp ((regOf_isSome_iff sel).mpr hsel)
    exact ⟨_, exec_rdReg_of_some s hr⟩
  · exact (getLsbD_flagsWord s 4).trans hcfg
  · obtain ⟨t, h, -, hfault, -⟩ := everyCommandCompletesAndKeepsConfig i s
    exact ⟨t, h, hfault.trans hcfg⟩

/-! ### An aborted context -/

/-- The five commands that need no frame context (60_exceptions.md R237): one starts a context, the
others change nothing but the response. -/
theorem bufInit_or_readOnly {i : Instr} (hi : frameDependent i = false) :
    (∃ len, i = .bufInit len) ∨ readOnly i = true := by
  cases i with
  | bufInit len => exact .inl ⟨len, rfl⟩
  | opcLookup | opcIsvar | opcDesc | rdReg => exact .inr rfl
  | _ => cases hi

/-- A command that needs no frame context runs with legal operands in a valid configuration. -/
theorem firstRaised_of_not_frameDependent {i : Instr} {s : State} (hcfg : s.cfgFault = false)
    (hlegal : operandsLegal s.cfg i) (hi : frameDependent i = false) :
    firstRaised (gateOf s i) s = none := by
  refine (firstRaised_eq_none _ s).mpr ⟨fun _ => hcfg, (gateOf_legal_iff s i).mpr hlegal,
    fun hframe => ?_, stateOk_of_not_frameDependent s hi, bounds_of_not_frameDependent hi⟩
  exact absurd (hi.symm.trans ((gateOf_frameDependent s i).symm.trans hframe)) Bool.false_ne_true

/-- Settles O17: the abort check refuses the frame-dependent commands; of the others `BUF_INIT`
starts a context, and the rest leave the response alone. -/
theorem abortedContextRefusesFrameCommands : Obligations.AbortedContextRefusesFrameCommands := by
  intro i s hcfg habort hlegal
  refine ⟨exec_frameAborted hcfg habort hlegal, fun hi => ?_⟩
  have hnone := firstRaised_of_not_frameDependent hcfg hlegal hi
  have heff := effect_effectOf hnone
  refine ⟨_, (exec_eq_runCommand i s).trans (runCommand_effect hnone _), heff.status_eq_ok, ?_⟩
  obtain ⟨len, rfl⟩ | hread := bufInit_or_readOnly hi
  · exact iff_of_true ⟨len, rfl⟩ rfl
  · refine iff_of_false (fun ⟨len, h⟩ => ?_) ?_
    · subst h
      cases hread
    · rw [heff.eq_respond_of_readOnly hread, respond_aborted, habort]
      exact Bool.true_eq_false.mp

end Sys2Proof.Machine

/-!
CERTIFICATE. Reset and the configuration check (70_reset_and_hazards.md): reset at the port (R270),
the exactness of the check (R272), the code of the first failing test (R273), and the default
configuration (R274).
-/
namespace Sys2Proof.Machine

/-! ### Reset at the port -/

/-- Settles O2: of the four kinds of step only reset fits the port. -/
theorem resetInputGivesResetState : Obligations.ResetInputGivesResetState := by
  intro s c rest hport
  obtain ⟨hs, -⟩ | ⟨c', rest', hs, hstep⟩ | ⟨w, rest', i, hs, -⟩ | ⟨w, rest', r, hs, -⟩ :=
    step_cases s <;> cases hport.symm.trans hs
  exact hstep

/-! ### The exactness of the check -/

/-- Settles O28: the check's first cause is 0 when every test passes, and each test passes on its
own condition. -/
theorem configCheckIsExact : Obligations.ConfigCheckIsExact := checkCfg_eq_zero_iff

/-! ### The first failing test of a list

A code `n` is not 0 throughout: 0 says that no test fails. -/

section
variable {n : Nat}

/-- The first test of a list decides, or it passes and the tests behind it decide. -/
theorem firstCause_cons_eq_iff (hn : n ≠ 0) (a : Nat) (cs : List Nat) :
    firstCause (a :: cs) = n ↔ a = n ∨ a = 0 ∧ firstCause cs = n := by
  rw [firstCause]
  split <;> omega

theorem firstCause_nil_eq_iff (hn : n ≠ 0) : firstCause [] = n ↔ False :=
  iff_false_intro hn.symm

/-- A test with one code gives it exactly when the test fails. -/
theorem cause_eq_iff {cause code : Nat} {legal : Prop} (hzero : cause = 0 ↔ legal)
    (hcode : cause = 0 ∨ cause = code) (hn : n ≠ 0) : cause = n ↔ n = code ∧ ¬ legal := by
  rw [← hzero]
  omega

/-! ### Tables and entries -/

theorem corrTableCause_eq_iff (hn : n ≠ 0) (T : CorrTable) :
    corrTableCause T = n ↔ n = 1 ∧ ¬ corrShapeLegal T
      ∨ n = 2 ∧ corrShapeLegal T ∧ ¬ corrEntriesFit T
      ∨ n = 3 ∧ corrShapeLegal T ∧ corrEntriesFit T ∧ ¬ T.syn.Nodup := by
  obtain ⟨-, h1, h2, h3, hle⟩ := corrTableCause_spec T
  rw [← h1, ← h2, ← h3]
  clear h1 h2 h3
  omega

theorem crc9TableCause_zero_or_ge (U : Crc9Table) :
    crc9TableCause U = 0 ∨ 4 ≤ crc9TableCause U := by
  unfold crc9TableCause
  split_ifs <;> simp

theorem crc9TableCause_eq_iff (hn : n ≠ 0) (U : Crc9Table) :
    crc9TableCause U = n ↔ n = 4 ∧ ¬ crc9ShapeLegal U
      ∨ n = 5 ∧ crc9ShapeLegal U ∧ ¬ crc9EntriesFit U
      ∨ n = 6 ∧ crc9ShapeLegal U ∧ crc9EntriesFit U ∧ ¬ U.syn.Nodup := by
  obtain ⟨-, h4, h5, h6, hle⟩ := crc9TableCause_spec U
  have hge := crc9TableCause_zero_or_ge U
  rw [← h4, ← h5, ← h6]
  clear h4 h5 h6
  omega

theorem opcDefCause_eq_iff (hn : n ≠ 0) (e : OpcDef) :
    opcDefCause e = n ↔ n = 7 ∧ 255 < e.code
      ∨ n = 9 ∧ e.code ≤ 255 ∧ ¬ payLenLegal e.length := by
  obtain ⟨-, h7, h9, hcode⟩ := opcDefCause_spec e
  rw [← h7, ← h9]
  omega

/-- A list of tables is refused for their number, or else for its first illegal table. -/
theorem tablesCause_eq_iff {α : Type} {f : α → Nat} {legal : α → Prop}
    (h0 : ∀ T, f T = 0 ↔ legal T) (hn : n ≠ 0) (code : Nat) (Ts : List α) :
    (if Ts.length < 1 || 256 < Ts.length then code else firstCause (Ts.map f)) = n ↔
      n = code ∧ ¬ tableCountLegal Ts
        ∨ tableCountLegal Ts ∧ ∃ T, firstIllegal legal Ts T ∧ f T = n := by
  have hcount : (Ts.length < 1 || 256 < Ts.length) = true ↔ ¬ tableCountLegal Ts := by
    simp only [Bool.or_eq_true, decide_eq_true_eq]
    omega
  simp only [hcount, ← firstCause_map_eq_iff h0 Ts hn]
  by_cases h : tableCountLegal Ts
  · rw [if_neg (not_not_intro h), and_iff_right h,
      or_iff_right (not_and_of_not_right _ (not_not_intro h))]
  · rw [if_pos h, and_iff_left h, or_iff_left (not_and_of_not_left _ h), eq_comm]

theorem corrTablesCause_eq_iff (hn : n ≠ 0) (Ts : List CorrTable) :
    corrTablesCause Ts = n ↔ n = 1 ∧ ¬ tableCountLegal Ts
      ∨ tableCountLegal Ts ∧ ∃ T, firstIllegal corrTableLegal Ts T ∧ corrTableCause T = n :=
  tablesCause_eq_iff (fun T => (corrTableCause_spec T).1) hn 1 Ts

theorem crc9TablesCause_eq_iff (hn : n ≠ 0) (Us : List Crc9Table) :
    crc9TablesCause Us = n ↔ n = 4 ∧ ¬ tableCountLegal Us
      ∨ tableCountLegal Us ∧ ∃ U, firstIllegal crc9TableLegal Us U ∧ crc9TableCause U = n :=
  tablesCause_eq_iff (fun U => (crc9TableCause_spec U).1) hn 4 Us

theorem opcDefsCause_eq_iff (hn : n ≠ 0) (es : List OpcDef) :
    firstCause (es.map opcDefCause) = n ↔
      ∃ e, firstIllegal opcDefLegal es e ∧ opcDefCause e = n :=
  firstCause_map_eq_iff (fun e => (opcDefCause_spec e).1) es hn

/-! ### The tests with one code -/

theorem capCause_eq_iff (hn : n ≠ 0) (c : Cfg) : capCause c.cap = n ↔ n = 12 ∧ ¬ capLegal c :=
  cause_eq_iff (capCause_eq_zero_iff c) (by unfold capCause; split <;> simp) hn

theorem failIncCause_eq_iff (hn : n ≠ 0) (c : Cfg) :
    failIncCause c.crc9FailInc = n ↔ n = 13 ∧ ¬ failIncLegal c :=
  cause_eq_iff (failIncCause_eq_zero_iff c) (by unfold failIncCause; split <;> simp) hn

theorem opcDupCause_eq_iff (hn : n ≠ 0) (c : Cfg) :
    opcDupCause c.opcDef = n ↔ n = 8 ∧ ¬ opcCodesDistinct c :=
  cause_eq_iff (opcDupCause_eq_zero_iff c) (by unfold opcDupCause; split <;> simp) hn

theorem fallbackLenCause_eq_iff (hn : n ≠ 0) (c : Cfg) :
    fallbackLenCause c = n ↔ n = 9 ∧ ¬ fallbackLensLegal c :=
  cause_eq_iff (fallbackLenCause_eq_zero_iff c) (by unfold fallbackLenCause; split <;> simp) hn

/-- The count of `SYNC_TABLE` and each of its entries are refused with the same code. -/
theorem syncTableCause_zero_or_ten (cap : Nat) (S : List SyncEntry) :
    syncTableCause cap S = 0 ∨ syncTableCause cap S = 10 := by
  unfold syncTableCause
  split
  · exact .inr rfl
  · refine or_iff_not_imp_left.mpr fun h => ?_
    obtain ⟨e, -, he⟩ :=
      (firstCause_map_eq_iff (fun e => (syncEntryCause_spec cap e).1) S h).mp rfl
    rw [← he] at h ⊢
    exact (syncEntryCause_spec cap e).2.resolve_left h

theorem syncTableCause_eq_iff (hn : n ≠ 0) (c : Cfg) :
    syncTableCause c.cap c.syncTable = n ↔ n = 10 ∧ ¬ syncTableLegal c :=
  cause_eq_iff (syncTableCause_eq_zero_iff c) (syncTableCause_zero_or_ten _ _) hn

theorem syncDupCause_eq_iff (hn : n ≠ 0) (c : Cfg) :
    syncDupCause c.syncTable = n ↔ n = 11 ∧ ¬ syncKeysDistinct c :=
  cause_eq_iff (syncDupCause_eq_zero_iff c) (by unfold syncDupCause; split <;> simp) hn

/-! ### The whole check -/

/-- The check gives a code when some test gives it and every test before that one passes
(70_reset_and_hazards.md R272). -/
theorem checkCfg_eq_iff (hn : n ≠ 0) (c : Cfg) :
    checkCfg c = n ↔
      n = 12 ∧ ¬ capLegal c ∨ capLegal c ∧
      (corrTablesCause c.corrTables = n ∨ corrTablesLegal c ∧
      (crc9TablesCause c.crc9Tables = n ∨ crc9TablesLegal c ∧
      (n = 13 ∧ ¬ failIncLegal c ∨ failIncLegal c ∧
      ((∃ e, firstIllegal opcDefLegal c.opcDef e ∧ opcDefCause e = n) ∨ opcDefsLegal c ∧
      (n = 8 ∧ ¬ opcCodesDistinct c ∨ opcCodesDistinct c ∧
      (n = 9 ∧ ¬ fallbackLensLegal c ∨ fallbackLensLegal c ∧
      (n = 10 ∧ ¬ syncTableLegal c ∨ syncTableLegal c ∧
      (n = 11 ∧ ¬ syncKeysDistinct c)))))))) := by
  have hdefs : firstCause (c.opcDef.map opcDefCause) = 0 ↔ opcDefsLegal c :=
    firstCause_map_eq_zero_iff (fun e => (opcDefCause_spec e).1) _
  simp only [checkCfg, firstCause_cons_eq_iff hn, firstCause_nil_eq_iff hn, and_false, or_false,
    capCause_eq_iff hn, failIncCause_eq_iff hn, opcDefsCause_eq_iff hn, opcDupCause_eq_iff hn,
    fallbackLenCause_eq_iff hn, syncTableCause_eq_iff hn, syncDupCause_eq_iff hn,
    capCause_eq_zero_iff, corrTablesCause_eq_zero_iff, crc9TablesCause_eq_zero_iff,
    failIncCause_eq_zero_iff, hdefs, opcDupCause_eq_zero_iff, fallbackLenCause_eq_zero_iff,
    syncTableCause_eq_zero_iff]

end

/-- Settles O29: of the tests in order only those with the clause's own code remain. -/
theorem configCauseNamesTheFirstFailure : Obligations.ConfigCauseNamesTheFirstFailure := by
  intro c
  refine ⟨?_, ?_, ?_, ?_, ?_, ?_, ?_, ?_, ?_, ?_, ?_, ?_, ?_, checkCfg_le c⟩ <;>
    simp only [checkCfg_eq_iff, corrTablesCause_eq_iff, corrTableCause_eq_iff,
      crc9TablesCause_eq_iff, crc9TableCause_eq_iff, opcDefCause_eq_iff, ne_eq, Nat.reduceEqDiff,
      OfNat.ofNat_ne_zero, not_false_eq_true, false_and, true_and, and_false, false_or, or_false,
      exists_false]

/-! ### The default configuration -/

/-- No entry is 0 or all-ones (70_reset_and_hazards.md R274). -/
theorem ccitt80_nondegenerate : ∀ e ∈ ccitt80.syn, e ≠ 0 ∧ e ≠ 0xFFFF := by decide +kernel

theorem opcDefsLegal_defaultCfg : opcDefsLegal defaultCfg := by
  simp [opcDefsLegal, opcDefLegal, payLenLegal, defaultCfg]

theorem syncTableLegal_defaultCfg : syncTableLegal defaultCfg := by decide

theorem cfgLegal_defaultCfg : cfgLegal defaultCfg := by
  refine ⟨by decide, ⟨by decide, ?_⟩, ⟨by decide, ?_⟩, .inl rfl, opcDefsLegal_defaultCfg,
    by decide, ⟨.inl rfl, .inl rfl, .inl rfl, .inl rfl, .inl rfl⟩, syncTableLegal_defaultCfg,
    by decide⟩
  · exact List.forall_mem_singleton.mpr corrTableLegal_ccitt80
  · exact List.forall_mem_singleton.mpr crc9TableLegal_crc9Default

/-- Settles O27: the default configuration is legal, and its tables are. -/
theorem defaultConfigPasses : Obligations.DefaultConfigPasses := by
  have hcheck : checkCfg defaultCfg = 0 := (checkCfg_eq_zero_iff _).mpr cfgLegal_defaultCfg
  obtain ⟨-, -, hccitt⟩ := corrTableLegal_ccitt80
  obtain ⟨-, -, hcrc9⟩ := crc9TableLegal_crc9Default
  refine ⟨hcheck, ?_, hccitt, ccitt80_nondegenerate, hcrc9, crc9Default_nondegenerate⟩
  simp [State.reset, State.resetWith, hcheck]

end Sys2Proof.Machine
